-- ==== Sys2Proof/Word.lean ====
section
/-! DEFINITION. The word of the register bus and the byte of one bus lane (10_state.md R30, 20_memory.md R82). -/

namespace Sys2Proof

/-- A register, a command word, a bus transfer: 32 bits, bit 0 least significant (00_scope.md R10). -/
abbrev Word := BitVec 32

/-- What one byte lane of the register bus carries (20_memory.md R82). -/
abbrev Byte := BitVec 8

end Sys2Proof
end

