-- ==== Sys2Proof/Syntax.lean ====
section
/-! DEFINITION. The thirteen commands of spec/opcode_table.json and the names their fields stand for. -/

namespace Sys2Proof

/-- Channel-type tag of a resource element (10_state.md R52). Codes 6 and 7 are reserved and name nothing. -/
inductive Tag where
  | empty | pdsch | pdcch | coreset | ssb | dmrs
  deriving DecidableEq, Repr

/-- Modulation order of QAM_MAP and QAM_FILL (30_encoding.md R114). -/
inductive Order where
  | bpsk | qpsk | qam16 | qam64 | qam256
  deriving DecidableEq, Repr

/-- Seed select of RS_CINIT and RS_GEN (30_encoding.md R115). -/
inductive Sel where
  | pdsch | pbch | raw
  deriving DecidableEq, Repr

/-- One constructor per row of the opcode map (30_encoding.md R118). Field values that R114, R115 and R117
call illegal by having no name cannot be written; the others are refused by `Instr.WellFormed`. -/
inductive Instr where
  /-- NOP, 40_config.md R155. -/
  | nop
  /-- CFG_APPLY, 40_config.md R140. -/
  | cfgApply
  /-- GRID_CLEAR, 40_config.md R156. -/
  | gridClear
  /-- PRBS_SEED, 41_prbs.md R181. -/
  | prbsSeed
  /-- PRBS_GEN, 41_prbs.md R183; CNT is legal for 1..32 (30_encoding.md R116). -/
  | prbsGen (cnt : BitVec 6)
  /-- PRBS_SKIP, 41_prbs.md R184. -/
  | prbsSkip
  /-- QAM_MAP, 42_qam.md R202. -/
  | qamMap (ord : Order)
  /-- QAM_FILL, 42_qam.md R205; the tag EMPTY is illegal (30_encoding.md R117). -/
  | qamFill (tag : Tag) (ord : Order)
  /-- RS_CINIT, 43_refsig.md R238. -/
  | rsCinit (sel : Sel)
  /-- RS_GEN, 43_refsig.md R239. -/
  | rsGen (sel : Sel)
  /-- OFDM_SYMBOL, 44_ofdm.md R266. -/
  | ofdmSym (sym : BitVec 12)
  /-- OFDM_SLOT, 44_ofdm.md R267. -/
  | ofdmSlot (slot : BitVec 8)
  /-- OFDM_FRAME, 44_ofdm.md R268. -/
  | ofdmFrame
  deriving DecidableEq, Repr

/-- Symbolic ORD operand of the assembler (30_encoding.md R121). -/
def Order.asm : Order → String
  | .bpsk => "bpsk"
  | .qpsk => "qpsk"
  | .qam16 => "qam16"
  | .qam64 => "qam64"
  | .qam256 => "qam256"

/-- Symbolic SEL operand of the assembler (30_encoding.md R121). -/
def Sel.asm : Sel → String
  | .pdsch => "pdsch"
  | .pbch => "pbch"
  | .raw => "raw"

/-- Symbolic TAG operand of the assembler (30_encoding.md R121); EMPTY has none, no command takes it. -/
def Tag.asm : Tag → String
  | .empty => "empty"
  | .pdsch => "pdsch"
  | .pdcch => "pdcch"
  | .coreset => "coreset"
  | .ssb => "ssb"
  | .dmrs => "dmrs"

/-- Command mnemonic (30_encoding.md R121). -/
def Instr.mnemonic : Instr → String
  | .nop => "nop"
  | .cfgApply => "cfg.apply"
  | .gridClear => "grid.clear"
  | .prbsSeed => "prbs.seed"
  | .prbsGen _ => "prbs.gen"
  | .prbsSkip => "prbs.skip"
  | .qamMap _ => "qam.map"
  | .qamFill _ _ => "qam.fill"
  | .rsCinit _ => "rs.cinit"
  | .rsGen _ => "rs.gen"
  | .ofdmSym _ => "ofdm.sym"
  | .ofdmSlot _ => "ofdm.slot"
  | .ofdmFrame => "ofdm.frame"

/-- The operands as the assembler writes them, ORD before TAG (30_encoding.md R121). -/
def Instr.operands : Instr → List String
  | .nop | .cfgApply | .gridClear | .prbsSeed | .prbsSkip | .ofdmFrame => []
  | .prbsGen cnt => [toString cnt.toNat]
  | .qamMap ord => [ord.asm]
  | .qamFill tag ord => [ord.asm, tag.asm]
  | .rsCinit sel => [sel.asm]
  | .rsGen sel => [sel.asm]
  | .ofdmSym sym => [toString sym.toNat]
  | .ofdmSlot slot => [toString slot.toNat]

/-- One line of a host program (30_encoding.md R121). -/
def Instr.asm (i : Instr) : String :=
  match i.operands with
  | [] => i.mnemonic
  | os => i.mnemonic ++ " " ++ String.intercalate ", " os

end Sys2Proof
end

