-- ==== Sys2Proof/WellFormed.lean ====
section
/-! DEFINITION. Which commands the encoding admits (30_encoding.md R112, R116, R117). -/

namespace Sys2Proof

/-- CNT is legal for 1..32 (30_encoding.md R116). -/
def cntLegal (cnt : BitVec 6) : Bool := decide (1 ≤ cnt.toNat ∧ cnt.toNat ≤ 32)

/-- TAG is legal for PDSCH, PDCCH, CORESET, SSB and DMRS, not for EMPTY (30_encoding.md R117). -/
def tagLegal (tag : Tag) : Bool := tag != .empty

/-- The checks a command's fields must pass. The legality of ORD and SEL (R114, R115) is in their types. -/
def Instr.WellFormed : Instr → Bool
  | .prbsGen cnt => cntLegal cnt
  | .qamFill tag _ => tagLegal tag
  | .nop | .cfgApply | .gridClear | .prbsSeed | .prbsSkip | .qamMap _ | .rsCinit _ | .rsGen _
  | .ofdmSym _ | .ofdmSlot _ | .ofdmFrame => true

end Sys2Proof
end

