-- ==== Sys2Proof/Decode.lean ====
section
/-! DEFINITION. The decoder of command words (30_encoding.md R110 to R120), total, and the encoder. -/

namespace Sys2Proof

/-- Why a word is ILLEGAL_CMD (30_encoding.md R112). -/
inductive Illegal where
  /-- The opcode is not in the opcode map (30_encoding.md R119). -/
  | reservedOpcode
  /-- A must-be-zero bit of the format is 1 (30_encoding.md R110). -/
  | mbzSet
  /-- A field holds a value R114, R115, R116 or R117 calls illegal. -/
  | illegalField
  deriving DecidableEq, Repr

/-- What a command word is: one command with legal fields, or ILLEGAL_CMD (30_encoding.md R112). -/
inductive Decoded where
  | command (i : Instr)
  | illegal (why : Illegal)
  deriving DecidableEq, Repr

/-- The modulation an ORD code names (30_encoding.md R114). -/
def Order.ofCode (c : BitVec 3) : Option Order :=
  match c.toNat with
  | 0 => some .bpsk
  | 1 => some .qpsk
  | 2 => some .qam16
  | 3 => some .qam64
  | 4 => some .qam256
  | _ => none

/-- The seed a SEL code names (30_encoding.md R115). -/
def Sel.ofCode (c : BitVec 2) : Option Sel :=
  match c.toNat with
  | 0 => some .pdsch
  | 1 => some .pbch
  | 2 => some .raw
  | _ => none

/-- The tag a 3-bit code names; 6 and 7 are reserved (10_state.md R52). -/
def Tag.ofCode (c : BitVec 3) : Option Tag :=
  match c.toNat with
  | 0 => some .empty
  | 1 => some .pdsch
  | 2 => some .pdcch
  | 3 => some .coreset
  | 4 => some .ssb
  | 5 => some .dmrs
  | _ => none

/-- A command whose fields named something, if it is well formed. -/
def Decoded.ofFields (i? : Option Instr) : Decoded :=
  match i? with
  | some i => if i.WellFormed then .command i else .illegal .illegalField
  | none => .illegal .illegalField

/-- The MBZ check of a format, then its fields (30_encoding.md R112). -/
def Decoded.ofFormat (mbz : Bool) (i? : Option Instr) : Decoded :=
  if mbz then Decoded.ofFields i? else .illegal .mbzSet

/-- Format F0: bits [23:0] all MBZ (30_encoding.md R111). -/
def decodeF0 (w : BitVec 32) (i : Instr) : Decoded :=
  .ofFormat (w.extractLsb' 0 24 == 0#24) (some i)

/-- Format FG: [23:6] MBZ, CNT in [5:0] (30_encoding.md R111). -/
def decodeFG (w : BitVec 32) (f : BitVec 6 → Instr) : Decoded :=
  .ofFormat (w.extractLsb' 6 18 == 0#18) (some (f (w.extractLsb' 0 6)))

/-- Format FQ: [23:3] MBZ, ORD in [2:0] (30_encoding.md R111). -/
def decodeFQ (w : BitVec 32) (f : Order → Instr) : Decoded :=
  .ofFormat (w.extractLsb' 3 21 == 0#21) ((Order.ofCode (w.extractLsb' 0 3)).map f)

/-- Format FF: [23:11] and [7:3] MBZ, TAG in [10:8], ORD in [2:0] (30_encoding.md R111). -/
def decodeFF (w : BitVec 32) (f : Tag → Order → Instr) : Decoded :=
  .ofFormat (w.extractLsb' 11 13 == 0#13 && w.extractLsb' 3 5 == 0#5)
    ((Tag.ofCode (w.extractLsb' 8 3)).bind fun t => (Order.ofCode (w.extractLsb' 0 3)).map (f t))

/-- Format FR: [23:2] MBZ, SEL in [1:0] (30_encoding.md R111). -/
def decodeFR (w : BitVec 32) (f : Sel → Instr) : Decoded :=
  .ofFormat (w.extractLsb' 2 22 == 0#22) ((Sel.ofCode (w.extractLsb' 0 2)).map f)

/-- Format FS: [23:12] MBZ, SYM in [11:0] (30_encoding.md R111). -/
def decodeFS (w : BitVec 32) (f : BitVec 12 → Instr) : Decoded :=
  .ofFormat (w.extractLsb' 12 12 == 0#12) (some (f (w.extractLsb' 0 12)))

/-- Format FT: [23:8] MBZ, SLOT in [7:0] (30_encoding.md R111). -/
def decodeFT (w : BitVec 32) (f : BitVec 8 → Instr) : Decoded :=
  .ofFormat (w.extractLsb' 8 16 == 0#16) (some (f (w.extractLsb' 0 8)))

/-- The opcode map (30_encoding.md R118); every other opcode is reserved (R119). -/
def decode (w : BitVec 32) : Decoded :=
  match (w.extractLsb' 24 8).toNat with
  | 0x00 => decodeF0 w .nop
  | 0x01 => decodeF0 w .cfgApply
  | 0x02 => decodeF0 w .gridClear
  | 0x10 => decodeF0 w .prbsSeed
  | 0x11 => decodeFG w .prbsGen
  | 0x12 => decodeF0 w .prbsSkip
  | 0x20 => decodeFQ w .qamMap
  | 0x21 => decodeFF w .qamFill
  | 0x30 => decodeFR w .rsCinit
  | 0x31 => decodeFR w .rsGen
  | 0x40 => decodeFS w .ofdmSym
  | 0x41 => decodeFT w .ofdmSlot
  | 0x42 => decodeF0 w .ofdmFrame
  | _ => .illegal .reservedOpcode

/-- ORD code of a modulation (30_encoding.md R114). -/
def Order.code : Order → BitVec 3
  | .bpsk => 0#3
  | .qpsk => 1#3
  | .qam16 => 2#3
  | .qam64 => 3#3
  | .qam256 => 4#3

/-- SEL code of a seed (30_encoding.md R115). -/
def Sel.code : Sel → BitVec 2
  | .pdsch => 0#2
  | .pbch => 1#2
  | .raw => 2#2

/-- Code of a tag (10_state.md R52). -/
def Tag.code : Tag → BitVec 3
  | .empty => 0#3
  | .pdsch => 1#3
  | .pdcch => 2#3
  | .coreset => 3#3
  | .ssb => 4#3
  | .dmrs => 5#3

/-- The word of a command (30_encoding.md R111, R118): opcode in [31:24], the format's fields below. -/
def encode : Instr → BitVec 32
  | .nop => 0x00#8 ++ 0#24
  | .cfgApply => 0x01#8 ++ 0#24
  | .gridClear => 0x02#8 ++ 0#24
  | .prbsSeed => 0x10#8 ++ 0#24
  | .prbsGen cnt => 0x11#8 ++ 0#18 ++ cnt
  | .prbsSkip => 0x12#8 ++ 0#24
  | .qamMap ord => 0x20#8 ++ 0#21 ++ ord.code
  | .qamFill tag ord => 0x21#8 ++ 0#13 ++ tag.code ++ 0#5 ++ ord.code
  | .rsCinit sel => 0x30#8 ++ 0#22 ++ sel.code
  | .rsGen sel => 0x31#8 ++ 0#22 ++ sel.code
  | .ofdmSym sym => 0x40#8 ++ 0#12 ++ sym
  | .ofdmSlot slot => 0x41#8 ++ 0#16 ++ slot
  | .ofdmFrame => 0x42#8 ++ 0#24

/-- The match word of a command's row of the opcode map (30_encoding.md R118). -/
def rowMatch : Instr → BitVec 32
  | .nop => 0x00000000#32
  | .cfgApply => 0x01000000#32
  | .gridClear => 0x02000000#32
  | .prbsSeed => 0x10000000#32
  | .prbsGen _ => 0x11000000#32
  | .prbsSkip => 0x12000000#32
  | .qamMap _ => 0x20000000#32
  | .qamFill _ _ => 0x21000000#32
  | .rsCinit _ => 0x30000000#32
  | .rsGen _ => 0x31000000#32
  | .ofdmSym _ => 0x40000000#32
  | .ofdmSlot _ => 0x41000000#32
  | .ofdmFrame => 0x42000000#32

/-- The mask word of a command's row: a word selects the row when its masked bits are the match
(30_encoding.md R118). -/
def rowMask : Instr → BitVec 32
  | .nop | .cfgApply | .gridClear | .prbsSeed | .prbsSkip | .ofdmFrame => 0xFFFFFFFF#32
  | .prbsGen _ => 0xFFFFFFC0#32
  | .qamMap _ => 0xFFFFFFF8#32
  | .qamFill _ _ => 0xFFFFF8F8#32
  | .rsCinit _ | .rsGen _ => 0xFFFFFFFC#32
  | .ofdmSym _ => 0xFFFFF000#32
  | .ofdmSlot _ => 0xFFFFFF00#32

/-- Byte lane i of a 32-bit transfer carries bits [8i+7:8i] (20_memory.md R82). -/
def busLane (w : BitVec 32) (i : Nat) : Byte := w.extractLsb' (8 * i) 8

/-- The lanes of a transfer, lane 0 first (20_memory.md R82). -/
def busLanes (w : BitVec 32) : List Byte := [busLane w 0, busLane w 1, busLane w 2, busLane w 3]

/-- The word four lanes carry (20_memory.md R82); a command is always one whole word (30_encoding.md R120). -/
def wordOfLanes : List Byte → Option (BitVec 32)
  | [b0, b1, b2, b3] => some (b3 ++ b2 ++ b1 ++ b0)
  | _ => none

/-- The command carried by bus bytes, if they are one whole word that decodes. -/
def decodeLanes (bs : List Byte) : Option Instr :=
  match wordOfLanes bs with
  | none => none
  | some w =>
    match decode w with
    | .command i => some i
    | .illegal _ => none

/-- The instruction the decoder reads from the word whose low `nbits` bits are those of `w` and whose other
bits are 0 (the host's numbering; every command is one 32-bit word, 30_encoding.md R110). -/
def decodeTableWord (nbits w : Nat) : Option Instr :=
  if nbits ≤ 32 then decodeLanes (busLanes (BitVec.ofNat 32 (w % 2 ^ nbits))) else none

end Sys2Proof
end

