-- ==== Sys2Proof/Config.lean ====
section
/-! DEFINITION. The parameters the spec leaves open (00_scope.md R9, 20_memory.md R87) and the free values of
the environment (42_qam.md R206, 70_reset_and_hazards.md R351). Every open value is a constant with no body, so
no proof can see what it is and a claim holds whatever it is. -/

namespace Sys2Proof

/-- One stored complex sample (00_scope.md R9). DESIGN CHOICE (log 2): the format is open, so a sample is the
number of its bit pattern, which nothing computes with; `Config.toC` alone says which complex number it is. -/
structure Sample where
  code : Nat
  deriving DecidableEq, Repr, Inhabited

/-- The parameter `zero` of Sample (00_scope.md R9); its pattern is numbered 0 (log 2). -/
def Sample.zero : Sample := ⟨0⟩

/-- An ideal constellation point `(a + j·b)/√norm` (42_qam.md R200), exact. -/
structure Point where
  a : Int
  b : Int
  norm : Nat
  deriving DecidableEq, Repr

/-- The N-point inverse DFT of an implementation: the type of P_IDFT (00_scope.md R9). -/
abbrev Transform := (n : Nat) → (Fin n → ℂ) → Fin n → Sample

/-- The two size limits of CFG_APPLY (00_scope.md R9), as arguments of its checks. -/
structure Limits where
  nrbMax : Nat
  nfftMax : Nat
  deriving DecidableEq, Repr

/-- Which of the 511 legal values P_NRB_MAX has, counted on from the recommended 273 (00_scope.md R9; log 1). -/
opaque Config.nrbMaxPick : Fin 511

/-- Which of the 12 legal powers of two P_NFFT_MAX is, counted on from the recommended 4096 (00_scope.md R9; log 1). -/
opaque Config.nfftMaxPick : Fin 12

/-- P_NRB_MAX: some number in 1..511 (00_scope.md R9). -/
def Config.nrbMax : Nat := (272 + Config.nrbMaxPick.val) % 511 + 1

/-- P_NFFT_MAX: some power of two in 16..32768 (00_scope.md R9). -/
def Config.nfftMax : Nat := 2 ^ ((8 + Config.nfftMaxPick.val) % 12 + 4)

/-- The limits of this implementation (00_scope.md R9). -/
def Config.limits : Limits := ⟨Config.nrbMax, Config.nfftMax⟩

/-- P_BASE, the platform's base address of the register window (20_memory.md R87; log 23). -/
opaque Config.base : Nat

/-- The complex number a pattern other than zero's stands for: `toC` of 00_scope.md R9 (log 4). -/
opaque Config.complexOf : Sample → ℂ

/-- `toC : Sample → ℂ`, with `toC zero = 0` (00_scope.md R9). -/
def Config.toC (v : Sample) : ℂ := if v = Sample.zero then 0 else Config.complexOf v

/-- The quantiser at the points other than 0 that a unit stores (00_scope.md R9, 42_qam.md R204; log 3). -/
opaque Config.quantised : Point → Sample

/-- P_Q at a constellation point, with `P_Q 0 = zero` (00_scope.md R9). -/
def Config.quantise (d : Point) : Sample :=
  if d.a = 0 ∧ d.b = 0 then Sample.zero else Config.quantised d

/-- P_IDFT of this implementation (00_scope.md R9, 44_ofdm.md R262; log 4). -/
opaque Config.transform : Transform

/-- The n-th draw of filler bits; QAM_FILL reads its low Qm bits (42_qam.md R205, R206; log 5). -/
opaque Config.drawBits : Nat → BitVec 8

/-- The n-th unspecified register value (70_reset_and_hazards.md R351; log 10). -/
opaque Config.drawWord : Nat → Word

/-- The n-th unspecified Sample (70_reset_and_hazards.md R351; log 21). -/
opaque Config.drawSample : Nat → Sample

/-- The n-th unspecified tag code (70_reset_and_hazards.md R351; log 21). -/
opaque Config.drawTag : Nat → BitVec 3

end Sys2Proof
end

