-- ==== Sys2Proof/Machine/State.lean ====
section
/-! DEFINITION. The state of the block and of its environment, as plain data, and the state after reset
(10_state.md R30 to R58). -/

namespace Sys2Proof.Machine

/-- Why a run is faulted for good (60_exceptions.md R307). Both are raised by host accesses only, never by a
command, and both are safe: the spec forbids any claim about what follows. -/
inductive Fault where
  /-- A refused register or memory access: wrong width or alignment, a GRID or OUT index that does not exist, a
  reserved tag, a write to OUT (20_memory.md R81, R84, R85). Safe. -/
  | busError
  /-- A host write to the read or write set of the pending command (70_reset_and_hazards.md R352). Safe. -/
  | hazard
  deriving DecidableEq, Repr

/-- Why an instruction has no meaning. No arm of `exec` answers with it: every command is modelled. -/
inductive Refusal where
  /-- Raised by no arm of this model. Safe. -/
  | notModelled (mnemonic : String)
  deriving DecidableEq, Repr

/-- The error kinds a command or a CMD write reports (60_exceptions.md R300). -/
inductive CmdError where
  | cfgCpInvalid | cfgCellRange | cfgMuRange | cfgCpMismatch | cfgFsNotInteger | cfgNfftSmall
  | cfgNfftLimit | cfgNrbRange | notConfigured | range | illegalCmd | busy | extCpUnsupported
  deriving DecidableEq, Repr

/-- Staged configuration, CFG_NUM to CFG_NFFT (10_state.md R38 to R42). -/
structure StagedConfig where
  /-- CFG_NUM[2:0], the numerology μ. -/
  mu : BitVec 3
  /-- CFG_NUM[5:4]: 0 normal, 1 extended, 2 and 3 illegal. -/
  cp : BitVec 2
  nrb : BitVec 9
  cell : BitVec 10
  fs : BitVec 32
  nfft : BitVec 16
  deriving DecidableEq, Repr

/-- Effective and derived registers, EFF_NUM to CP_LEN_13 (10_state.md R43, R44). -/
structure EffectiveConfig where
  mu : BitVec 3
  cp : BitVec 2
  nrb : BitVec 9
  cell : BitVec 10
  fs : BitVec 32
  scsHz : BitVec 32
  slotsPerSubframe : BitVec 5
  symsPerSlot : BitVec 4
  nUseful : BitVec 32
  nFft : BitVec 16
  cpShort : BitVec 32
  cpLong : BitVec 32
  slotSamples : BitVec 32
  totalSlots : BitVec 8
  totalSymbols : BitVec 12
  totalSamples : BitVec 32
  nSubcarriers : BitVec 13
  /-- CP_LEN_0 .. CP_LEN_13, fourteen of them. -/
  cpLen : List (BitVec 32)
  deriving DecidableEq, Repr

/-- PRBS unit registers (10_state.md R45). -/
structure PrbsRegs where
  cinit : BitVec 31
  x1 : BitVec 31
  x2 : BitVec 31
  pos : BitVec 32
  out : BitVec 32
  deriving DecidableEq, Repr

/-- Mapper result registers; MAP_I and MAP_Q are signed (10_state.md R46). -/
structure MapRegs where
  i : BitVec 32
  q : BitVec 32
  norm : BitVec 8
  deriving DecidableEq, Repr

/-- Reference-signal registers (10_state.md R47). -/
structure RsRegs where
  mask : BitVec 12
  moff : BitVec 16
  cinit : BitVec 31
  deriving DecidableEq, Repr

/-- One resource element: a Sample and a channel-type tag (10_state.md R51, R52). -/
structure RE where
  val : Sample
  tag : Tag
  deriving DecidableEq, Repr

/-- The resource element (zero, EMPTY) (10_state.md R51). -/
def RE.blank : RE := ⟨Sample.zero, .empty⟩

/-- A memory as the list of its elements that differ from what an unlisted one reads as, by rising index.
The element of GRID or OUT is a whole Sample (20_memory.md R86), so there are no bytes to list. -/
abbrev Memory (α : Type) := List (Nat × α)

/-- One access of the host (20_memory.md R80, R81, R84, R85). The width is in bits; the offset is within the
4096-byte register window (10_state.md R30). -/
inductive HostAccess where
  | regRead (width : Nat) (offset : BitVec 12)
  | regWrite (width : Nat) (offset : BitVec 12) (value : BitVec 32)
  | gridRead (k l : Nat)
  | gridWrite (k l : Nat) (value : Sample) (tag : BitVec 3)
  | outRead (n : Nat)
  | outWrite (n : Nat) (value : Sample)
  deriving DecidableEq, Repr

/-- Who moves next: the host with one access, the engine, or the power supply with a power-on reset
(00_scope.md R7, 70_reset_and_hazards.md R340). -/
inductive Turn where
  | host (a : HostAccess)
  | engine
  | powerOn
  deriving DecidableEq, Repr

/-- What a read of the host returned. -/
inductive Observation where
  | reg (offset : BitVec 12) (value : BitVec 32)
  | grid (k l : Nat) (value : Sample) (tag : BitVec 3)
  | out (n : Nat) (value : Sample)
  deriving DecidableEq, Repr

/-- The block's surroundings: the model's own fields, not the spec's (log 5, log 6, log 7). -/
structure Environment where
  /-- The turns to come, an input; when it is empty the engine moves (60_exceptions.md R305). -/
  agenda : List Turn
  /-- What the host has read, newest first. -/
  observed : List Observation
  /-- How many free values have been drawn. -/
  draws : Nat
  deriving DecidableEq, Repr

/-- The state of the block (10_state.md R30 to R53) and its environment. -/
structure State where
  /-- CTRL.IRQ_EN (10_state.md R33). -/
  irqEn : Bool
  /-- STATUS.CFG_VALID (10_state.md R34). -/
  cfgValid : Bool
  /-- STATUS.DONE (10_state.md R34). -/
  done : Bool
  /-- STATUS.ERR (10_state.md R34). -/
  err : Bool
  /-- ERR_CODE[7:0] (10_state.md R35). -/
  errCode : BitVec 8
  /-- The pending-command slot; STATUS.BUSY is its being filled (10_state.md R48). -/
  pending : Option (BitVec 32)
  /-- ARG0 (10_state.md R37). -/
  arg0 : BitVec 32
  /-- ARG1 (10_state.md R37). -/
  arg1 : BitVec 32
  /-- ARG2 (10_state.md R37). -/
  arg2 : BitVec 32
  cfg : StagedConfig
  eff : EffectiveConfig
  prbs : PrbsRegs
  map : MapRegs
  rs : RsRegs
  /-- GRID, by `gridKey`; nothing listed while CFG_VALID = 0 (10_state.md R51; log 14). -/
  grid : Memory RE
  /-- OUT, by sample number; nothing listed while CFG_VALID = 0 (10_state.md R53; log 14). -/
  out : Memory Sample
  env : Environment
  deriving DecidableEq, Repr

/-- Every effective and derived register at 0 (10_state.md R58). -/
def EffectiveConfig.zero : EffectiveConfig :=
  { mu := 0, cp := 0, nrb := 0, cell := 0, fs := 0, scsHz := 0, slotsPerSubframe := 0, symsPerSlot := 0,
    nUseful := 0, nFft := 0, cpShort := 0, cpLong := 0, slotSamples := 0, totalSlots := 0, totalSymbols := 0,
    totalSamples := 0, nSubcarriers := 0, cpLen := [0, 0, 0, 0, 0, 0, 0, 0, 0, 0, 0, 0, 0, 0] }

/-- The machine after power-on reset (10_state.md R58), with nothing scheduled by the environment (log 6). -/
def State.reset : State :=
  { irqEn := false, cfgValid := false, done := false, err := false, errCode := 0, pending := none,
    arg0 := 0, arg1 := 0, arg2 := 0,
    cfg := { mu := 0, cp := 0, nrb := 0, cell := 0, fs := 0, nfft := 0 },
    eff := EffectiveConfig.zero,
    prbs := { cinit := 0, x1 := 0, x2 := 0, pos := 0, out := 0 },
    map := { i := 0, q := 0, norm := 0 },
    rs := { mask := 0, moff := 0, cinit := 0 },
    grid := [], out := [],
    env := { agenda := [], observed := [], draws := 0 } }

end Sys2Proof.Machine
end

