-- ==== Sys2Proof/Machine/Ops.lean ====
section
/-! DEFINITION. The named operations over GRID, OUT and the status registers: element memories in canonical
form, raising an error, completing a command, clearing the report, reset. -/

namespace Sys2Proof.Machine

/-! ### Element memories -/

/-- The element at index `a`; an unlisted one reads as `d` (40_config.md R152: zero after CFG_APPLY). -/
def Memory.read {α : Type} (d : α) : Memory α → Nat → α
  | [], _ => d
  | (k, v) :: m, a => if k = a then v else Memory.read d m a

/-- The elements `start .. start+len-1` become `f 0 .. f (len-1)`; all others stay. Only elements other than
`d` are listed, so equal memories are equal lists. -/
def Memory.writeRange {α : Type} [DecidableEq α] (d : α) (m : Memory α) (start len : Nat) (f : Nat → α) :
    Memory α :=
  m.filter (fun e => decide (e.1 < start))
    ++ (List.range len).filterMap (fun i => if f i = d then none else some (start + i, f i))
    ++ m.filter (fun e => decide (start + len ≤ e.1))

/-- One element becomes `v`. -/
def Memory.write {α : Type} [DecidableEq α] (d : α) (m : Memory α) (a : Nat) (v : α) : Memory α :=
  Memory.writeRange d m a 1 fun _ => v

/-- The canonical form: indices strictly rising, and no entry equal to what an unlisted element reads as. -/
abbrev Memory.wf {α : Type} [DecidableEq α] (d : α) (m : Memory α) : Prop :=
  m.Pairwise (fun e e' => e.1 < e'.1) ∧ ∀ e ∈ m, e.2 ≠ d

/-- The stride of `gridKey`, above every subcarrier index: N_SUBCARRIERS is a 13-bit register (10_state.md R30). -/
def gridStride : Nat := 8192

/-- The index under which GRID[k][l] is kept: column by column (log 14). -/
def gridKey (k l : Nat) : Nat := gridStride * l + k

/-- GRID[k][l] (00_scope.md R11). -/
def State.gridAt (s : State) (k l : Nat) : RE := Memory.read RE.blank s.grid (gridKey k l)

/-- OUT[n] (00_scope.md R11). -/
def State.outAt (s : State) (n : Nat) : Sample := Memory.read Sample.zero s.out n

/-! ### Errors, completion, report -/

/-- The code of an error (60_exceptions.md R300). -/
def CmdError.code : CmdError → BitVec 8
  | .cfgCpInvalid => 0x01#8
  | .cfgCellRange => 0x02#8
  | .cfgMuRange => 0x03#8
  | .cfgCpMismatch => 0x04#8
  | .cfgFsNotInteger => 0x05#8
  | .cfgNfftSmall => 0x06#8
  | .cfgNfftLimit => 0x07#8
  | .cfgNrbRange => 0x08#8
  | .notConfigured => 0x10#8
  | .range => 0x11#8
  | .illegalCmd => 0x12#8
  | .busy => 0x13#8
  | .extCpUnsupported => 0x14#8

/-- Raising an error: the first one while ERR is 0 is kept (60_exceptions.md R301, 10_state.md R35). -/
def State.raise (s : State) (e : CmdError) : State :=
  { s with err := true, errCode := if s.err then s.errCode else e.code }

/-- The report's return: STATUS[3] written 1 clears ERR and ERR_CODE, STATUS[2] written 1 clears DONE
(60_exceptions.md R308, 10_state.md R34). -/
def State.clearReport (s : State) (clearDone clearErr : Bool) : State :=
  { s with done := s.done && !clearDone
           err := s.err && !clearErr
           errCode := if clearErr then 0 else s.errCode }

/-- Completion: DONE is set and the pending slot emptied (60_exceptions.md R304). -/
def State.complete (s : State) : State := { s with done := true, pending := none }

/-- A command's outcome: its whole effect, or its first error and nothing else (60_exceptions.md R301). -/
def State.settle (s : State) (r : Except CmdError State) : Host.Outcome State Fault Refusal :=
  match r with
  | .ok t => .next t
  | .error e => .next (s.raise e)

/-- GRID and OUT cease to exist, CFG_VALID is cleared, the error is raised: a failing CFG_APPLY
(40_config.md R153). -/
def State.failConfig (s : State) (e : CmdError) : State :=
  { s.raise e with cfgValid := false, grid := [], out := [] }

/-- Power-on and soft reset (70_reset_and_hazards.md R340, R341): every register at its reset value, the
pending command discarded. The environment is outside the block and stays (log 16). -/
def State.toReset (s : State) : State := { State.reset with env := s.env }

/-! ### Common checks of the commands -/

/-- A command that needs an effective configuration (60_exceptions.md R300, NOT_CONFIGURED). -/
def State.needConfig (s : State) (k : Except CmdError State) : Except CmdError State :=
  if s.cfgValid then k else .error .notConfigured

/-- An OFDM command, which also needs a normal cyclic prefix (44_ofdm.md R261). -/
def State.needNormalCp (s : State) (k : Except CmdError State) : Except CmdError State :=
  s.needConfig (if s.eff.cp = 0 then k else .error .extCpUnsupported)

/-- A command that fails with RANGE when its target leaves the effective grid (60_exceptions.md R300). -/
def needRange (inside : Prop) [Decidable inside] (k : Except CmdError State) : Except CmdError State :=
  if inside then k else .error .range

/-! ### The environment -/

/-- The host reads a value. -/
def State.observe (s : State) (o : Observation) : State :=
  { s with env := { s.env with observed := o :: s.env.observed } }

/-- `n` free values have been drawn. -/
def State.drew (s : State) (n : Nat) : State :=
  { s with env := { s.env with draws := s.env.draws + n } }

/-- The turn at the head of the agenda is taken. -/
def State.popTurn (s : State) : State :=
  { s with env := { s.env with agenda := s.env.agenda.tail } }

/-- Completion of whatever a command answered (60_exceptions.md R304). -/
def finish : Host.Outcome State Fault Refusal → Host.Outcome State Fault Refusal
  | .next t => .next t.complete
  | .fault r => .fault r
  | .refused r => .refused r

end Sys2Proof.Machine
end

