-- ==== Sys2Proof/Machine/Flags.lean ====
section
/-! DEFINITION. The STATUS and CTRL words, their writes, and the interrupt line (10_state.md R33, R34, R57). -/

namespace Sys2Proof.Machine

/-- STATUS.BUSY: 1 exactly when a command is pending (10_state.md R34, R48). -/
def State.busy (s : State) : Bool := s.pending.isSome

/-- STATUS as read: BUSY, CFG_VALID, DONE, ERR in bits 0 to 3, the rest 0 (10_state.md R34). -/
def State.statusWord (s : State) : BitVec 32 :=
  0#28 ++ BitVec.ofBool s.err ++ BitVec.ofBool s.done ++ BitVec.ofBool s.cfgValid ++ BitVec.ofBool s.busy

/-- CTRL as read: SRST reads 0, IRQ_EN is bit 1 (10_state.md R33). -/
def State.ctrlWord (s : State) : BitVec 32 := 0#30 ++ BitVec.ofBool s.irqEn ++ 0#1

/-- A host write to STATUS: bits 2 and 3 are W1C, all others are ignored (10_state.md R34). -/
def State.writeStatus (s : State) (v : BitVec 32) : State := s.clearReport (v.getLsbD 2) (v.getLsbD 3)

/-- A host write to CTRL: bit 0 performs a soft reset and leaves IRQ_EN at 0, otherwise bit 1 is IRQ_EN
(10_state.md R33, 70_reset_and_hazards.md R341). -/
def State.writeCtrl (s : State) (v : BitVec 32) : State :=
  if v.getLsbD 0 then s.toReset else { s with irqEn := v.getLsbD 1 }

/-- A host write to CMD: accepted when idle, else error BUSY at once and the word is lost (10_state.md R36). -/
def State.writeCmd (s : State) (w : BitVec 32) : State :=
  if s.busy then s.raise .busy else { s with pending := some w }

/-- The interrupt output: IRQ_EN and (DONE or ERR), a level, not stored (10_state.md R57, 60_exceptions.md R311). -/
def State.irq (s : State) : Bool := s.irqEn && (s.done || s.err)

end Sys2Proof.Machine
end

