-- ==== Sys2Proof/Machine/Registers.lean ====
section
/-! DEFINITION. The register window: names, offsets, used bits, reading and writing (10_state.md R30, R31). -/

namespace Sys2Proof.Machine

/-- The registers of the window (10_state.md R30). -/
inductive RegName where
  | id | ctrl | status | errCode | cmd | arg0 | arg1 | arg2
  | cfgNum | cfgNrb | cfgCell | cfgFs | cfgNfft
  | effNum | effNrb | effCell | effFs | scsHz | slotsPerSubframe | symsPerSlot | nUseful | nFft
  | cpShort | cpLong | slotSamples | totalSlots | totalSymbols | totalSamples | nSubcarriers
  | cpLen (i : Fin 14)
  | prbsCinit | prbsX1 | prbsX2 | prbsPos | prbsOut
  | mapI | mapQ | mapNorm
  | rsMask | rsMoff | rsCinit
  deriving DecidableEq, Repr

/-- Offset of a register in the window (10_state.md R30). -/
def RegName.offset : RegName → BitVec 12
  | .id => 0x000#12
  | .ctrl => 0x004#12
  | .status => 0x008#12
  | .errCode => 0x00C#12
  | .cmd => 0x010#12
  | .arg0 => 0x014#12
  | .arg1 => 0x018#12
  | .arg2 => 0x01C#12
  | .cfgNum => 0x020#12
  | .cfgNrb => 0x024#12
  | .cfgCell => 0x028#12
  | .cfgFs => 0x02C#12
  | .cfgNfft => 0x030#12
  | .effNum => 0x040#12
  | .effNrb => 0x044#12
  | .effCell => 0x048#12
  | .effFs => 0x04C#12
  | .scsHz => 0x050#12
  | .slotsPerSubframe => 0x054#12
  | .symsPerSlot => 0x058#12
  | .nUseful => 0x05C#12
  | .nFft => 0x060#12
  | .cpShort => 0x064#12
  | .cpLong => 0x068#12
  | .slotSamples => 0x06C#12
  | .totalSlots => 0x070#12
  | .totalSymbols => 0x074#12
  | .totalSamples => 0x078#12
  | .nSubcarriers => 0x07C#12
  | .cpLen i => 0x080#12 + BitVec.ofNat 12 (4 * i.val)
  | .prbsCinit => 0x0C0#12
  | .prbsX1 => 0x0C4#12
  | .prbsX2 => 0x0C8#12
  | .prbsPos => 0x0CC#12
  | .prbsOut => 0x0D0#12
  | .mapI => 0x0E0#12
  | .mapQ => 0x0E4#12
  | .mapNorm => 0x0E8#12
  | .rsMask => 0x0F0#12
  | .rsMoff => 0x0F4#12
  | .rsCinit => 0x0F8#12

/-- The effective and derived registers, EFF_NUM to N_SUBCARRIERS and CP_LEN_0 to CP_LEN_13: the "effective
configuration" of 70_reset_and_hazards.md R345. -/
def effectiveRegs : List RegName :=
  [ .effNum, .effNrb, .effCell, .effFs, .scsHz, .slotsPerSubframe, .symsPerSlot, .nUseful, .nFft, .cpShort,
    .cpLong, .slotSamples, .totalSlots, .totalSymbols, .totalSamples, .nSubcarriers ]
    ++ (List.finRange 14).map .cpLen

/-- Every register of the window (10_state.md R30). -/
def allRegs : List RegName :=
  [ .id, .ctrl, .status, .errCode, .cmd, .arg0, .arg1, .arg2, .cfgNum, .cfgNrb, .cfgCell, .cfgFs, .cfgNfft ]
    ++ effectiveRegs
    ++ [ .prbsCinit, .prbsX1, .prbsX2, .prbsPos, .prbsOut, .mapI, .mapQ, .mapNorm, .rsMask, .rsMoff, .rsCinit ]

/-- The register at an offset; none is an unlisted offset, RAZ/WI (10_state.md R31). -/
def regAt (offset : BitVec 12) : Option RegName := allRegs.find? fun r => r.offset == offset

/-- Where the platform puts a register of the window (20_memory.md R87). -/
def busAddress (offset : BitVec 12) : Nat := Config.base + offset.toNat

/-- The bits of a register that are used; the others read 0 and ignore writes (10_state.md R30, R31). -/
def RegName.usedBits : RegName → BitVec 32
  | .id | .cmd | .arg0 | .arg1 | .arg2 | .cfgFs | .effFs | .scsHz | .nUseful | .cpShort | .cpLong
  | .slotSamples | .totalSamples | .cpLen _ | .prbsPos | .prbsOut | .mapI | .mapQ => 0xFFFFFFFF#32
  | .ctrl => 0x00000003#32
  | .status => 0x0000000F#32
  | .errCode | .totalSlots | .mapNorm => 0x000000FF#32
  | .cfgNum | .effNum => 0x00000037#32
  | .cfgNrb | .effNrb => 0x000001FF#32
  | .cfgCell | .effCell => 0x000003FF#32
  | .cfgNfft | .nFft | .rsMoff => 0x0000FFFF#32
  | .slotsPerSubframe => 0x0000001F#32
  | .symsPerSlot => 0x0000000F#32
  | .totalSymbols | .rsMask => 0x00000FFF#32
  | .nSubcarriers => 0x00001FFF#32
  | .prbsCinit | .prbsX1 | .prbsX2 | .rsCinit => 0x7FFFFFFF#32

/-- A numerology word: μ in [2:0], CP type in [5:4] (10_state.md R38). -/
def numWord (mu : BitVec 3) (cp : BitVec 2) : BitVec 32 := (cp ++ 0#1 ++ mu).setWidth 32

/-- The current value of a register (10_state.md R30 to R47); CMD reads 0 and ID is constant (R31, R32). -/
def State.readReg (s : State) : RegName → BitVec 32
  | .id => 0x504E0007#32
  | .ctrl => s.ctrlWord
  | .status => s.statusWord
  | .errCode => s.errCode.setWidth 32
  | .cmd => 0#32
  | .arg0 => s.arg0
  | .arg1 => s.arg1
  | .arg2 => s.arg2
  | .cfgNum => numWord s.cfg.mu s.cfg.cp
  | .cfgNrb => s.cfg.nrb.setWidth 32
  | .cfgCell => s.cfg.cell.setWidth 32
  | .cfgFs => s.cfg.fs
  | .cfgNfft => s.cfg.nfft.setWidth 32
  | .effNum => numWord s.eff.mu s.eff.cp
  | .effNrb => s.eff.nrb.setWidth 32
  | .effCell => s.eff.cell.setWidth 32
  | .effFs => s.eff.fs
  | .scsHz => s.eff.scsHz
  | .slotsPerSubframe => s.eff.slotsPerSubframe.setWidth 32
  | .symsPerSlot => s.eff.symsPerSlot.setWidth 32
  | .nUseful => s.eff.nUseful
  | .nFft => s.eff.nFft.setWidth 32
  | .cpShort => s.eff.cpShort
  | .cpLong => s.eff.cpLong
  | .slotSamples => s.eff.slotSamples
  | .totalSlots => s.eff.totalSlots.setWidth 32
  | .totalSymbols => s.eff.totalSymbols.setWidth 32
  | .totalSamples => s.eff.totalSamples
  | .nSubcarriers => s.eff.nSubcarriers.setWidth 32
  | .cpLen i => s.eff.cpLen.getD i.val 0
  | .prbsCinit => s.prbs.cinit.setWidth 32
  | .prbsX1 => s.prbs.x1.setWidth 32
  | .prbsX2 => s.prbs.x2.setWidth 32
  | .prbsPos => s.prbs.pos
  | .prbsOut => s.prbs.out
  | .mapI => s.map.i
  | .mapQ => s.map.q
  | .mapNorm => s.map.norm.setWidth 32
  | .rsMask => s.rs.mask.setWidth 32
  | .rsMoff => s.rs.moff.setWidth 32
  | .rsCinit => s.rs.cinit.setWidth 32

/-- A write to a register: the side effects of CTRL, STATUS and CMD, storage of the used bits of RW registers,
nothing for RO ones (10_state.md R31, 20_memory.md R83). -/
def State.writeReg (s : State) (r : RegName) (v : BitVec 32) : State :=
  match r with
  | .ctrl => s.writeCtrl v
  | .status => s.writeStatus v
  | .cmd => s.writeCmd v
  | .arg0 => { s with arg0 := v }
  | .arg1 => { s with arg1 := v }
  | .arg2 => { s with arg2 := v }
  | .cfgNum => { s with cfg := { s.cfg with mu := v.extractLsb' 0 3, cp := v.extractLsb' 4 2 } }
  | .cfgNrb => { s with cfg := { s.cfg with nrb := v.extractLsb' 0 9 } }
  | .cfgCell => { s with cfg := { s.cfg with cell := v.extractLsb' 0 10 } }
  | .cfgFs => { s with cfg := { s.cfg with fs := v } }
  | .cfgNfft => { s with cfg := { s.cfg with nfft := v.extractLsb' 0 16 } }
  | .rsMask => { s with rs := { s.rs with mask := v.extractLsb' 0 12 } }
  | .rsMoff => { s with rs := { s.rs with moff := v.extractLsb' 0 16 } }
  | .id | .errCode | .effNum | .effNrb | .effCell | .effFs | .scsHz | .slotsPerSubframe | .symsPerSlot
  | .nUseful | .nFft | .cpShort | .cpLong | .slotSamples | .totalSlots | .totalSymbols | .totalSamples
  | .nSubcarriers | .cpLen _ | .prbsCinit | .prbsX1 | .prbsX2 | .prbsPos | .prbsOut | .mapI | .mapQ
  | .mapNorm | .rsCinit => s

end Sys2Proof.Machine
end

