-- ==== Sys2Proof/Machine/Hazards.lean ====
section
/-! DEFINITION. The read and write sets of the commands (70_reset_and_hazards.md R345) and the hazards of a
pending one (R351, R352). -/

namespace Sys2Proof.Machine

/-- What a command reads or writes besides STATUS, ERR_CODE and the pending slot (70_reset_and_hazards.md R345). -/
structure Footprint where
  readRegs : List RegName
  writeRegs : List RegName
  readsGrid : Bool
  writesGrid : Bool
  writesOut : Bool
  deriving DecidableEq, Repr

/-- The footprint of no command at all. -/
def Footprint.none : Footprint := ⟨[], [], false, false, false⟩

/-- The table of 70_reset_and_hazards.md R345. -/
def footprint : Instr → Footprint
  | .nop => .none
  | .cfgApply => ⟨[.cfgNum, .cfgNrb, .cfgCell, .cfgFs, .cfgNfft], effectiveRegs, false, true, true⟩
  | .gridClear => ⟨effectiveRegs, [], false, true, false⟩
  | .prbsSeed => ⟨[.arg0], [.prbsCinit, .prbsX1, .prbsX2, .prbsPos, .prbsOut], false, false, false⟩
  | .prbsGen _ =>
    ⟨[.prbsX1, .prbsX2, .prbsPos], [.prbsX1, .prbsX2, .prbsPos, .prbsOut], false, false, false⟩
  | .prbsSkip =>
    ⟨[.arg0, .prbsX1, .prbsX2, .prbsPos], [.prbsX1, .prbsX2, .prbsPos], false, false, false⟩
  | .qamMap _ => ⟨[.arg0], [.mapI, .mapQ, .mapNorm], false, false, false⟩
  | .qamFill _ _ => ⟨[.arg0, .arg1] ++ effectiveRegs, [], false, true, false⟩
  | .rsCinit _ => ⟨[.arg1, .arg2] ++ effectiveRegs, [.rsCinit], false, false, false⟩
  | .rsGen _ =>
    ⟨[.arg0, .arg1, .arg2, .rsMask, .rsMoff] ++ effectiveRegs, [.rsCinit], false, true, false⟩
  | .ofdmSym _ => ⟨effectiveRegs, [], true, false, true⟩
  | .ofdmSlot _ => ⟨effectiveRegs, [], true, false, true⟩
  | .ofdmFrame => ⟨effectiveRegs, [], true, false, true⟩

/-- The pending command, if there is one and it decodes. -/
def State.pendingCommand (s : State) : Option Instr :=
  match s.pending with
  | none => none
  | some w =>
    match decode w with
    | .command i => some i
    | .illegal _ => none

/-- What the pending command reads or writes; a word that is ILLEGAL_CMD touches nothing (log 12). -/
def State.pendingFootprint (s : State) : Footprint :=
  match s.pendingCommand with
  | some i => footprint i
  | none => .none

/-- Reading the register now returns an unspecified value (70_reset_and_hazards.md R351). -/
def State.readHazard (s : State) (r : RegName) : Bool := s.pendingFootprint.writeRegs.contains r

/-- Writing the register now is the fault HAZARD (70_reset_and_hazards.md R352; log 13). -/
def State.writeHazard (s : State) (r : RegName) : Bool :=
  s.pendingFootprint.readRegs.contains r || s.pendingFootprint.writeRegs.contains r

/-- Writing GRID now is the fault HAZARD (70_reset_and_hazards.md R352). -/
def State.gridWriteHazard (s : State) : Bool :=
  s.pendingFootprint.readsGrid || s.pendingFootprint.writesGrid

/-- A CFG_APPLY is pending: GRID and OUT are being re-created (70_reset_and_hazards.md R353). -/
def State.reconfiguring (s : State) : Bool := s.pendingCommand == some .cfgApply

end Sys2Proof.Machine
end

