-- ==== Sys2Proof/Machine/Bus.lean ====
section
/-! DEFINITION. The host's accesses: the register bus and the GRID and OUT ports (20_memory.md R80 to R86). -/

namespace Sys2Proof.Machine

/-- A register access is 32 bits wide at a multiple of 4 (20_memory.md R81). -/
def accessLegal (width : Nat) (offset : BitVec 12) : Bool := width == 32 && offset.toNat % 4 == 0

/-- GRID[k][l] exists (10_state.md R51, 20_memory.md R84). -/
def State.gridExists (s : State) (k l : Nat) : Bool :=
  s.cfgValid && decide (k < s.eff.nSubcarriers.toNat) && decide (l < s.eff.totalSymbols.toNat)

/-- OUT[n] exists (10_state.md R53, 20_memory.md R85). -/
def State.outExists (s : State) (n : Nat) : Bool := s.cfgValid && decide (n < s.eff.totalSamples.toNat)

/-- The value a register read returns: current, or unspecified in the used bits while the pending command
writes the register (20_memory.md R83, 70_reset_and_hazards.md R351; log 10). An unlisted offset reads 0. -/
def State.busRead (s : State) (offset : BitVec 12) : BitVec 32 × Nat :=
  match regAt offset with
  | none => (0, 0)
  | some r => if s.readHazard r then (Config.drawWord s.env.draws &&& r.usedBits, 1) else (s.readReg r, 0)

/-- A host register read changes nothing but what the host has seen (20_memory.md R83). -/
def hostRegRead (width : Nat) (offset : BitVec 12) (s : State) : Host.Outcome State Fault Refusal :=
  if accessLegal width offset then
    .next ((s.drew (s.busRead offset).2).observe (.reg offset (s.busRead offset).1))
  else .fault .busError

/-- A host register write (20_memory.md R83, 70_reset_and_hazards.md R352). -/
def hostRegWrite (width : Nat) (offset : BitVec 12) (v : BitVec 32) (s : State) :
    Host.Outcome State Fault Refusal :=
  if accessLegal width offset then
    match regAt offset with
    | none => .next s
    | some r => if s.writeHazard r then .fault .hazard else .next (s.writeReg r v)
  else .fault .busError

/-- An unspecified resource element read (70_reset_and_hazards.md R351; log 21). -/
def State.drawGrid (s : State) (k l : Nat) : State :=
  (s.drew 1).observe (.grid k l (Config.drawSample s.env.draws) (Config.drawTag s.env.draws))

/-- An unspecified output sample read (70_reset_and_hazards.md R351; log 21). -/
def State.drawOut (s : State) (n : Nat) : State :=
  (s.drew 1).observe (.out n (Config.drawSample s.env.draws))

/-- MemRead(GRID, (k, l)) (20_memory.md R85); unspecified while the pending command writes GRID, whatever the
index while a CFG_APPLY is pending (70_reset_and_hazards.md R351, R353; log 11). -/
def hostGridRead (k l : Nat) (s : State) : Host.Outcome State Fault Refusal :=
  if s.reconfiguring then .next (s.drawGrid k l)
  else if s.gridExists k l then
    if s.pendingFootprint.writesGrid then .next (s.drawGrid k l)
    else .next (s.observe (.grid k l (s.gridAt k l).val (s.gridAt k l).tag.code))
  else .fault .busError

/-- MemWrite(GRID, (k, l), (v, t)) (20_memory.md R84); HAZARD while the pending command uses GRID
(70_reset_and_hazards.md R352, R353; log 11). -/
def hostGridWrite (k l : Nat) (v : Sample) (t : BitVec 3) (s : State) : Host.Outcome State Fault Refusal :=
  if s.reconfiguring then .fault .hazard
  else if s.gridExists k l then
    match Tag.ofCode t with
    | none => .fault .busError
    | some tag =>
      if s.gridWriteHazard then .fault .hazard
      else .next { s with grid := Memory.write RE.blank s.grid (gridKey k l) ⟨v, tag⟩ }
  else .fault .busError

/-- MemRead(OUT, n) (20_memory.md R85); unspecified while the pending command writes OUT
(70_reset_and_hazards.md R351, R353; log 11). -/
def hostOutRead (n : Nat) (s : State) : Host.Outcome State Fault Refusal :=
  if s.reconfiguring then .next (s.drawOut n)
  else if s.outExists n then
    if s.pendingFootprint.writesOut then .next (s.drawOut n)
    else .next (s.observe (.out n (s.outAt n)))
  else .fault .busError

/-- MemWrite(OUT, n, v) is always refused (20_memory.md R85). -/
def hostOutWrite (_n : Nat) (_v : Sample) (_s : State) : Host.Outcome State Fault Refusal := .fault .busError

/-- One access of the host (20_memory.md R80). -/
def hostAccess (a : HostAccess) (s : State) : Host.Outcome State Fault Refusal :=
  match a with
  | .regRead width offset => hostRegRead width offset s
  | .regWrite width offset v => hostRegWrite width offset v s
  | .gridRead k l => hostGridRead k l s
  | .gridWrite k l v t => hostGridWrite k l v t s
  | .outRead n => hostOutRead n s
  | .outWrite n v => hostOutWrite n v s

end Sys2Proof.Machine
end

