-- ==== Sys2Proof/Machine/CfgApply.lean ====
section
/-! DEFINITION. CFG_APPLY: the checks, the OFDM parameters and the latch (40_config.md R140 to R154). -/

namespace Sys2Proof.Machine

/-- The integer nearest `a / b`, ties to the even one (00_scope.md R11). -/
def roundHalfEven (a b : Nat) : Nat :=
  let q := a / b
  let r := a % b
  if 2 * r < b then q else if b < 2 * r then q + 1 else q + q % 2

/-- The least power of two at or above `n` (00_scope.md R11). -/
def nextPow2 (n : Nat) : Nat := if n ≤ 1 then 1 else 2 ^ (Nat.log2 (n - 1) + 1)

/-- Whether `n` is a power of two (40_config.md R146). -/
def isPow2 (n : Nat) : Bool := n != 0 && 2 ^ Nat.log2 n == n

/-- Subcarrier spacing Δf = 15000 · 2^μ Hz (40_config.md R142). -/
def StagedConfig.deltaF (c : StagedConfig) : Nat := 15000 * 2 ^ c.mu.toNat

/-- Symbols per slot: 14, or 12 with extended CP (40_config.md R142). -/
def StagedConfig.sps (c : StagedConfig) : Nat := if c.cp = 0 then 14 else 12

/-- N_useful = fs / Δf (40_config.md R144). -/
def StagedConfig.nUsefulOf (c : StagedConfig) : Nat := c.fs.toNat / c.deltaF

/-- N_fft: the override, or the least power of two at or above N_useful (40_config.md R145, R146). -/
def StagedConfig.nFftOf (c : StagedConfig) : Nat :=
  if c.nfft = 0 then nextPow2 c.nUsefulOf else c.nfft.toNat

/-- The checks of CFG_APPLY in order, each with the error it names (40_config.md R141). -/
def StagedConfig.checks (lim : Limits) (c : StagedConfig) : List (Bool × CmdError) :=
  [ (decide (c.cp = 2 ∨ c.cp = 3), .cfgCpInvalid),
    (decide (1007 < c.cell.toNat), .cfgCellRange),
    (decide (4 < c.mu.toNat), .cfgMuRange),
    (decide (c.cp = 1 ∧ c.mu ≠ 2), .cfgCpMismatch),
    (decide (c.nrb = 0 ∨ lim.nrbMax < c.nrb.toNat), .cfgNrbRange),
    (decide (c.fs = 0 ∨ c.fs.toNat % c.deltaF ≠ 0), .cfgFsNotInteger),
    (decide (c.nfft ≠ 0 ∧ c.nfft.toNat < c.nUsefulOf), .cfgNfftSmall),
    (decide ((c.nfft ≠ 0 ∧ isPow2 c.nfft.toNat = false) ∨ lim.nfftMax < c.nFftOf), .cfgNfftLimit),
    (decide (c.nUsefulOf < 12 * c.nrb.toNat), .cfgNrbRange) ]

/-- The error of the first failing check, if any (40_config.md R141). -/
def StagedConfig.firstError (lim : Limits) (c : StagedConfig) : Option CmdError :=
  ((c.checks lim).find? (·.1)).map (·.2)

/-- The set LS of long-CP symbols, ascending (40_config.md R148). -/
def longSymbols (mu : Nat) : List Nat := if mu = 0 then [0, 7] else [0]

/-- The symbols of a slot not in LS, ascending (40_config.md R151). -/
def shortSymbols (mu : Nat) : List Nat := (List.range 14).filter fun i => !(longSymbols mu).contains i

/-- cp_short before reconciliation (40_config.md R148). -/
def cpShortOf (nUseful : Nat) : Nat := roundHalfEven (144 * nUseful) 2048

/-- cp_long before reconciliation (40_config.md R148). -/
def cpLongOf (nUseful : Nat) : Nat := roundHalfEven (160 * nUseful) 2048

/-- cp[0..13] before reconciliation (40_config.md R148). -/
def cpRounded (mu nUseful : Nat) : List Int :=
  (List.range 14).map fun i => if (longSymbols mu).contains i then (cpLongOf nUseful : Int) else cpShortOf nUseful

/-- ADD: LS ascending, then the others ascending (40_config.md R151). -/
def addOrder (mu : Nat) : List Nat := longSymbols mu ++ shortSymbols mu

/-- REM: the others descending, then LS descending (40_config.md R151). -/
def removeOrder (mu : Nat) : List Nat := (shortSymbols mu).reverse ++ (longSymbols mu).reverse

/-- `n` turns of the round robin: turn t changes cp[order[t mod 14]] by `δ` (40_config.md R151). -/
def roundRobin (order : List Nat) (δ : Int) (n : Nat) (cp : List Int) : List Int :=
  (List.range n).foldl (fun cp t => cp.modify (order.getD (t % 14) 0) (· + δ)) cp

/-- d, the surplus (positive) or deficit (negative) of a slot (40_config.md R151). -/
def cpExcess (slotSamples nUseful : Nat) (cp : List Int) : Int :=
  (slotSamples : Int) - (cp.map fun c => (nUseful : Int) + c).sum

/-- CP reconciliation: the fourteen lengths whose slot has exactly SLOT_SAMPLES samples (40_config.md R151). -/
def reconcile (mu nUseful slotSamples : Nat) : List Int :=
  let cp := cpRounded mu nUseful
  let d := cpExcess slotSamples nUseful cp
  if 0 ≤ d then roundRobin (addOrder mu) 1 d.toNat cp else roundRobin (removeOrder mu) (-1) (-d).toNat cp

/-- Samples per slot, normal CP: fs / (1000 · 2^μ) (40_config.md R150). -/
def StagedConfig.slotSamplesOf (c : StagedConfig) : Nat := c.fs.toNat / (1000 * 2 ^ c.mu.toNat)

/-- Slots per frame: ten subframes (40_config.md R150). -/
def StagedConfig.totalSlotsOf (c : StagedConfig) : Nat := 10 * 2 ^ c.mu.toNat

/-- A value for normal CP that extended CP leaves at 0 (40_config.md R147). -/
def StagedConfig.ifNormal (c : StagedConfig) (n : Nat) : Nat := if c.cp = 0 then n else 0

/-- The CP lengths CFG_APPLY latches: reconciled for normal CP, all 0 for extended CP (40_config.md R147, R151). -/
def StagedConfig.cpLenOf (c : StagedConfig) : List (BitVec 32) :=
  if c.cp = 0 then (reconcile c.mu.toNat c.nUsefulOf c.slotSamplesOf).map fun x => BitVec.ofInt 32 x
  else List.replicate 14 0#32

/-- What a successful CFG_APPLY latches (40_config.md R152, R147). -/
def StagedConfig.derive (c : StagedConfig) : EffectiveConfig :=
  { mu := c.mu, cp := c.cp, nrb := c.nrb, cell := c.cell, fs := c.fs
    scsHz := BitVec.ofNat 32 c.deltaF
    slotsPerSubframe := BitVec.ofNat 5 (2 ^ c.mu.toNat)
    symsPerSlot := BitVec.ofNat 4 c.sps
    nUseful := BitVec.ofNat 32 c.nUsefulOf
    nFft := BitVec.ofNat 16 c.nFftOf
    cpShort := BitVec.ofNat 32 (c.ifNormal (cpShortOf c.nUsefulOf))
    cpLong := BitVec.ofNat 32 (c.ifNormal (cpLongOf c.nUsefulOf))
    slotSamples := BitVec.ofNat 32 (c.ifNormal c.slotSamplesOf)
    totalSlots := BitVec.ofNat 8 c.totalSlotsOf
    totalSymbols := BitVec.ofNat 12 (c.sps * c.totalSlotsOf)
    totalSamples := BitVec.ofNat 32 (c.ifNormal (c.totalSlotsOf * c.slotSamplesOf))
    nSubcarriers := BitVec.ofNat 13 (12 * c.nrb.toNat)
    cpLen := c.cpLenOf }

/-- CFG_APPLY under given limits: latch and re-create GRID and OUT as zero, or fail (40_config.md R152, R153). -/
def State.applyConfig (lim : Limits) (s : State) : State :=
  match s.cfg.firstError lim with
  | none => { s with eff := s.cfg.derive, grid := [], out := [], cfgValid := true }
  | some e => s.failConfig e

/-- CFG_APPLY (40_config.md R140). -/
def execCfgApply (s : State) : Host.Outcome State Fault Refusal := .next (s.applyConfig Config.limits)

end Sys2Proof.Machine
end

