-- ==== Sys2Proof/Machine/Housekeeping.lean ====
section
/-! DEFINITION. NOP and GRID_CLEAR (40_config.md R155, R156). -/

namespace Sys2Proof.Machine

/-- NOP does nothing but complete (40_config.md R155). -/
def execNop (s : State) : Host.Outcome State Fault Refusal := .next s

/-- GRID_CLEAR: every RE becomes (zero, EMPTY); OUT stays (40_config.md R156). -/
def execGridClear (s : State) : Host.Outcome State Fault Refusal :=
  s.settle (s.needConfig (.ok { s with grid := [] }))

end Sys2Proof.Machine
end

