-- ==== Sys2Proof/Machine/Ofdm.lean ====
section
/-! DEFINITION. The OFDM modulator: placement, transform, extraction, cyclic extension, and OFDM_SYMBOL,
OFDM_SLOT, OFDM_FRAME (44_ofdm.md). The transform is an argument, P_IDFT of 00_scope.md R9. -/

namespace Sys2Proof.Machine

/-- Frequency placement: L values centred in N bins, then shifted by N/2 so that subcarrier L/2 is at zero
frequency (44_ofdm.md R263). -/
def placeColumn (n len : Nat) (x : Nat → ℂ) : Fin n → ℂ := fun k =>
  let start := (n - len) / 2
  let bin := (k.val + n / 2) % n
  if start ≤ bin ∧ bin < start + len then x (bin - start) else 0

/-- Sample `j` of a transform's result; the index is below N in every configuration CFG_APPLY latches, and
zero stands beyond it (log 20). -/
def sampleAt {n : Nat} (y : Fin n → Sample) (j : Nat) : Sample :=
  if h : j < n then y ⟨j, h⟩ else Sample.zero

/-- The frequency data of frame symbol `l`: values only, tags do not count (44_ofdm.md R260, R263). -/
def columnBins (e : EffectiveConfig) (g : Memory RE) (l : Nat) : Fin e.nFft.toNat → ℂ :=
  placeColumn e.nFft.toNat e.nSubcarriers.toNat fun i => Config.toC (Memory.read RE.blank g (gridKey i l)).val

/-- t0, where the useful part starts (44_ofdm.md R264). -/
def usefulStart (e : EffectiveConfig) : Nat := (e.nFft.toNat - e.nUseful.toNat) / 2

/-- The useful block u of frame symbol `l` (44_ofdm.md R264). -/
def usefulSample (T : Transform) (e : EffectiveConfig) (g : Memory RE) (l i : Nat) : Sample :=
  sampleAt (T e.nFft.toNat (columnBins e g l)) (usefulStart e + i)

/-- CP_LEN_i of the effective configuration (10_state.md R44). -/
def EffectiveConfig.cpLenAt (e : EffectiveConfig) (i : Nat) : Nat := (e.cpLen.getD i 0).toNat

/-- Samples of symbol i of a slot, its cyclic extension included (10_state.md R43, 44_ofdm.md R265). -/
def EffectiveConfig.symbolSamples (e : EffectiveConfig) (i : Nat) : Nat := e.nUseful.toNat + e.cpLenAt i

/-- off(l), where frame symbol `l` starts in OUT (44_ofdm.md R265). -/
def EffectiveConfig.symbolOffset (e : EffectiveConfig) (l : Nat) : Nat :=
  (l / e.symsPerSlot.toNat) * e.slotSamples.toNat
    + ((List.range (l % e.symsPerSlot.toNat)).map e.symbolSamples).sum

/-- sym[j] of frame symbol `l`: the last cp useful samples, then all of them (44_ofdm.md R265). -/
def symbolSample (T : Transform) (e : EffectiveConfig) (g : Memory RE) (l j : Nat) : Sample :=
  let cp := e.cpLenAt (l % e.symsPerSlot.toNat)
  if j < cp then usefulSample T e g l (e.nUseful.toNat - cp + j) else usefulSample T e g l (j - cp)

/-- OUT with frame symbol `l` modulated into its span (44_ofdm.md R265, R266). -/
def modulateSymbol (T : Transform) (e : EffectiveConfig) (g : Memory RE) (l : Nat) (o : Memory Sample) :
    Memory Sample :=
  Memory.writeRange Sample.zero o (e.symbolOffset l) (e.symbolSamples (l % e.symsPerSlot.toNat))
    (symbolSample T e g l)

/-- OUT with every symbol of slot `slot` modulated (44_ofdm.md R267). -/
def modulateSlot (T : Transform) (e : EffectiveConfig) (g : Memory RE) (slot : Nat) (o : Memory Sample) :
    Memory Sample :=
  (List.range e.symsPerSlot.toNat).foldl
    (fun o i => modulateSymbol T e g (slot * e.symsPerSlot.toNat + i) o) o

/-- OUT with every slot of the frame modulated (44_ofdm.md R268). -/
def modulateFrame (T : Transform) (e : EffectiveConfig) (g : Memory RE) (o : Memory Sample) : Memory Sample :=
  (List.range e.totalSlots.toNat).foldl (fun o slot => modulateSlot T e g slot o) o

/-- OFDM_SYMBOL (44_ofdm.md R266). -/
def execOfdmSym (sym : BitVec 12) (s : State) : Host.Outcome State Fault Refusal :=
  s.settle (s.needNormalCp (needRange (sym.toNat < s.eff.totalSymbols.toNat)
    (.ok { s with out := modulateSymbol Config.transform s.eff s.grid sym.toNat s.out })))

/-- OFDM_SLOT (44_ofdm.md R267). -/
def execOfdmSlot (slot : BitVec 8) (s : State) : Host.Outcome State Fault Refusal :=
  s.settle (s.needNormalCp (needRange (slot.toNat < s.eff.totalSlots.toNat)
    (.ok { s with out := modulateSlot Config.transform s.eff s.grid slot.toNat s.out })))

/-- OFDM_FRAME (44_ofdm.md R268). -/
def execOfdmFrame (s : State) : Host.Outcome State Fault Refusal :=
  s.settle (s.needNormalCp (.ok { s with out := modulateFrame Config.transform s.eff s.grid s.out }))

end Sys2Proof.Machine
end

