-- ==== Sys2Proof/Machine/Operands.lean ====
section
/-! DEFINITION. The operand fields a command reads from ARG0, ARG1 and ARG2 (30_encoding.md R113, 43_refsig.md
R230). Every field is unsigned; bits a command does not name are ignored. -/

namespace Sys2Proof.Machine

/-- PRBS_SEED: ARG0[30:0] (30_encoding.md R113). -/
def State.argSeed (s : State) : BitVec 31 := s.arg0.extractLsb' 0 31

/-- PRBS_SKIP: ARG0[31:0], the bit count K (30_encoding.md R113). -/
def State.argSkip (s : State) : Nat := s.arg0.toNat

/-- QAM_MAP: bit b(i) of the group is ARG0[i] (42_qam.md R203). -/
def State.argBit (s : State) (i : Nat) : Bool := s.arg0.getLsbD i

/-- First resource block RB0: ARG0[8:0] (30_encoding.md R113). -/
def State.argRb0 (s : State) : Nat := (s.arg0.extractLsb' 0 9).toNat

/-- Resource-block count NRBF: ARG0[24:16] (30_encoding.md R113). -/
def State.argNrbf (s : State) : Nat := (s.arg0.extractLsb' 16 9).toNat

/-- First frame symbol L0: ARG1[11:0] (30_encoding.md R113). -/
def State.argL0 (s : State) : Nat := (s.arg1.extractLsb' 0 12).toNat

/-- Symbol count NL: ARG1[27:16] (30_encoding.md R113). -/
def State.argNl (s : State) : Nat := (s.arg1.extractLsb' 16 12).toNat

/-- Slot index in the frame, SLOT: ARG1[7:0] (43_refsig.md R230). -/
def State.argSlot (s : State) : Nat := (s.arg1.extractLsb' 0 8).toNat

/-- Symbol index in the slot, SYMB: ARG1[11:8] (43_refsig.md R230). -/
def State.argSymb (s : State) : Nat := (s.arg1.extractLsb' 8 4).toNat

/-- SSB index: ARG1[17:12] (43_refsig.md R230). -/
def State.argSsb (s : State) : Nat := (s.arg1.extractLsb' 12 6).toNat

/-- Half-frame bit HF: ARG1[18] (43_refsig.md R230). -/
def State.argHf (s : State) : Nat := (s.arg1.extractLsb' 18 1).toNat

/-- Raw seed: ARG2[30:0] (43_refsig.md R233). -/
def State.argRawSeed (s : State) : BitVec 31 := s.arg2.extractLsb' 0 31

end Sys2Proof.Machine
end

