-- ==== Sys2Proof/Machine/Prbs.lean ====
section
/-! DEFINITION. The Gold-sequence generator: the sequences of 41_prbs.md R180, the window step of R182, and
PRBS_SEED, PRBS_GEN, PRBS_SKIP (R181, R183, R184). -/

namespace Sys2Proof.Machine

/-- The sequence x1: 1, then thirty 0s, then x1(n+31) = x1(n+3) + x1(n) mod 2 (41_prbs.md R180). -/
def goldX1 : Nat → Bool
  | n + 31 => goldX1 (n + 3) ^^ goldX1 n
  | n => n == 0

/-- The sequence x2: the seed's bits, then x2(n+31) = x2(n+3) + x2(n+2) + x2(n+1) + x2(n) mod 2
(41_prbs.md R180). -/
def goldX2 (c : BitVec 31) : Nat → Bool
  | n + 31 => goldX2 c (n + 3) ^^ goldX2 c (n + 2) ^^ goldX2 c (n + 1) ^^ goldX2 c n
  | n => c.getLsbD n

/-- Nc (41_prbs.md R180, 00_scope.md R8). -/
def goldOffset : Nat := 1600

/-- The output bit c(n) = x1(n + Nc) + x2(n + Nc) mod 2 (41_prbs.md R180). -/
def goldBit (c : BitVec 31) (n : Nat) : Bool := goldX1 (n + goldOffset) ^^ goldX2 c (n + goldOffset)

/-- Two 31-bit windows onto x1 and x2: bit i holds index m + i (41_prbs.md R182). -/
structure Windows where
  x1 : BitVec 31
  x2 : BitVec 31
  deriving DecidableEq, Repr

/-- A window one index on: the new bit enters at bit 30 (41_prbs.md R182). -/
def shiftIn (w : BitVec 31) (b : Bool) : BitVec 31 := BitVec.ofBool b ++ w.extractLsb' 1 30

/-- One step of both shift registers (41_prbs.md R182). -/
def stepWindows (w : Windows) : Windows :=
  { x1 := shiftIn w.x1 (w.x1.getLsbD 3 ^^ w.x1.getLsbD 0)
    x2 := shiftIn w.x2 (w.x2.getLsbD 3 ^^ w.x2.getLsbD 2 ^^ w.x2.getLsbD 1 ^^ w.x2.getLsbD 0) }

/-- `n` steps (41_prbs.md R181, R184). -/
def advance : Nat → Windows → Windows
  | 0, w => w
  | n + 1, w => advance n (stepWindows w)

/-- The bit the windows stand at (41_prbs.md R183). -/
def Windows.bit (w : Windows) : Bool := w.x1.getLsbD 0 ^^ w.x2.getLsbD 0

/-- The windows for a seed, advanced by Nc (41_prbs.md R181). -/
def seedWindows (c : BitVec 31) : Windows := advance goldOffset ⟨1#31, c⟩

/-- The next `n` bits packed from bit 0 up (41_prbs.md R183). -/
def packBits : Nat → Windows → Nat
  | 0, _ => 0
  | n + 1, w => w.bit.toNat + 2 * packBits n (stepWindows w)

/-- The windows PRBS_X1 and PRBS_X2 (10_state.md R45). -/
def PrbsRegs.windows (p : PrbsRegs) : Windows := ⟨p.x1, p.x2⟩

/-- The PRBS registers after PRBS_SEED with seed `c` (41_prbs.md R181). -/
def seededPrbs (c : BitVec 31) : PrbsRegs :=
  let w := seedWindows c
  { cinit := c, x1 := w.x1, x2 := w.x2, pos := 0, out := 0 }

/-- The PRBS registers after PRBS_GEN of `cnt` bits (41_prbs.md R183). -/
def PrbsRegs.generate (p : PrbsRegs) (cnt : Nat) : PrbsRegs :=
  let w := advance cnt p.windows
  { p with x1 := w.x1, x2 := w.x2, pos := p.pos + BitVec.ofNat 32 cnt,
           out := BitVec.ofNat 32 (packBits cnt p.windows) }

/-- The PRBS registers after PRBS_SKIP of `k` bits (41_prbs.md R184). -/
def PrbsRegs.skip (p : PrbsRegs) (k : Nat) : PrbsRegs :=
  let w := advance k p.windows
  { p with x1 := w.x1, x2 := w.x2, pos := p.pos + BitVec.ofNat 32 k }

/-- PRBS_SEED (41_prbs.md R181). -/
def execPrbsSeed (s : State) : Host.Outcome State Fault Refusal :=
  .next { s with prbs := seededPrbs s.argSeed }

/-- PRBS_GEN (41_prbs.md R183). -/
def execPrbsGen (cnt : BitVec 6) (s : State) : Host.Outcome State Fault Refusal :=
  .next { s with prbs := s.prbs.generate cnt.toNat }

/-- PRBS_SKIP (41_prbs.md R184). -/
def execPrbsSkip (s : State) : Host.Outcome State Fault Refusal :=
  .next { s with prbs := s.prbs.skip s.argSkip }

end Sys2Proof.Machine
end

