-- ==== Sys2Proof/Machine/Qam.lean ====
section
/-! DEFINITION. The constellation mapper: the bit-to-symbol formulas, QAM_MAP and QAM_FILL (42_qam.md). -/

namespace Sys2Proof.Machine

/-- s(x) = 1 − 2x (42_qam.md R200). -/
def sgn (x : Bool) : Int := if x then -1 else 1

/-- Qm, the bits of a symbol (30_encoding.md R114). -/
def bitsPerSymbol : Order → Nat
  | .bpsk => 1
  | .qpsk => 2
  | .qam16 => 4
  | .qam64 => 6
  | .qam256 => 8

/-- The point a group of bits maps to; no bit at or above Qm is read (42_qam.md R200). -/
def mapPoint (ord : Order) (b : Nat → Bool) : Point :=
  let s := fun i => sgn (b i)
  match ord with
  | .bpsk => ⟨s 0, s 0, 2⟩
  | .qpsk => ⟨s 0, s 1, 2⟩
  | .qam16 => ⟨s 0 * (2 - s 2), s 1 * (2 - s 3), 10⟩
  | .qam64 => ⟨s 0 * (4 - s 2 * (2 - s 4)), s 1 * (4 - s 3 * (2 - s 5)), 42⟩
  | .qam256 => ⟨s 0 * (8 - s 2 * (4 - s 4 * (2 - s 6))), s 1 * (8 - s 3 * (4 - s 5 * (2 - s 7))), 170⟩

/-- The mapper's result registers for a point (10_state.md R46). -/
def mapRegsOf (d : Point) : MapRegs :=
  { i := BitVec.ofInt 32 d.a, q := BitVec.ofInt 32 d.b, norm := BitVec.ofNat 8 d.norm }

/-- QAM_MAP (42_qam.md R202). -/
def execQamMap (ord : Order) (s : State) : Host.Outcome State Fault Refusal :=
  .next { s with map := mapRegsOf (mapPoint ord s.argBit) }

/-- The RE the n-th draw fills: P_Q of its point, with the command's tag (42_qam.md R205, R206; log 5). -/
def fillElement (ord : Order) (tag : Tag) (n : Nat) : RE :=
  ⟨Config.quantise (mapPoint ord fun i => (Config.drawBits n).getLsbD i), tag⟩

/-- One column of a rectangle, subcarriers upwards, a fresh draw per RE (42_qam.md R205). -/
def fillColumn (ord : Order) (tag : Tag) (rb0 nrbf l draw : Nat) (g : Memory RE) : Memory RE :=
  Memory.writeRange RE.blank g (gridKey (12 * rb0) l) (12 * nrbf) fun i => fillElement ord tag (draw + i)

/-- `nl` columns from `l0`, in order (42_qam.md R205; log 15). -/
def fillRect (ord : Order) (tag : Tag) (rb0 nrbf l0 nl draw : Nat) (g : Memory RE) : Memory RE :=
  (List.range nl).foldl (fun g j => fillColumn ord tag rb0 nrbf (l0 + j) (draw + j * (12 * nrbf)) g) g

/-- What QAM_FILL writes: the rectangle, one draw per RE (42_qam.md R205). -/
def State.filled (s : State) (tag : Tag) (ord : Order) : State :=
  { s.drew (s.argNl * (12 * s.argNrbf)) with
    grid := fillRect ord tag s.argRb0 s.argNrbf s.argL0 s.argNl s.env.draws s.grid }

/-- QAM_FILL (42_qam.md R205). -/
def execQamFill (tag : Tag) (ord : Order) (s : State) : Host.Outcome State Fault Refusal :=
  s.settle (s.needConfig
    (needRange (s.argRb0 + s.argNrbf ≤ s.eff.nrb.toNat ∧ s.argL0 + s.argNl ≤ s.eff.totalSymbols.toNat)
      (.ok (s.filled tag ord))))

end Sys2Proof.Machine
end

