-- ==== Sys2Proof/Machine/RefSig.lean ====
section
/-! DEFINITION. The reference-signal generator: the seed multiplexer, RS_CINIT and RS_GEN (43_refsig.md). -/

namespace Sys2Proof.Machine

/-- PDSCH DMRS seed, exact and then reduced (43_refsig.md R231). -/
def pdschSeed (cell slot symb : Nat) : Nat :=
  (2 ^ 17 * (14 * slot + symb + 1) * (2 * cell + 1) + 2 * cell) % 2 ^ 31

/-- i_ssb (43_refsig.md R232). -/
def ssbIndex (ssb hf : Nat) : Nat := if ssb ≤ 3 then ssb + 4 * hf else ssb + 8 * hf

/-- PBCH DMRS seed, exact and then reduced (43_refsig.md R232, 90_conflicts.md C1). -/
def pbchSeed (cell ssb hf : Nat) : Nat :=
  (2 ^ 11 * (ssbIndex ssb hf + 1) * (cell / 4 + 1) + 2 ^ 6 * (ssbIndex ssb hf + 1) + cell % 4) % 2 ^ 31

/-- The seed multiplexer; no field is range-checked (43_refsig.md R231 to R234). -/
def State.rsSeed (s : State) : Sel → BitVec 31
  | .pdsch => BitVec.ofNat 31 (pdschSeed s.eff.cell.toNat s.argSlot s.argSymb)
  | .pbch => BitVec.ofNat 31 (pbchSeed s.eff.cell.toNat s.argSsb s.argHf)
  | .raw => s.argRawSeed

/-- c(n) of the generator RS_GEN runs for itself, from its own windows (10_state.md R49, 41_prbs.md R185). -/
def ownGoldBit (c : BitVec 31) (n : Nat) : Bool := (advance n (seedWindows c)).bit

/-- r(m), the QPSK point of bits c(2m) and c(2m+1) (43_refsig.md R235). -/
def rsPoint (c : BitVec 31) (m : Nat) : Point :=
  ⟨sgn (ownGoldBit c (2 * m)), sgn (ownGoldBit c (2 * m + 1)), 2⟩

/-- rank(p): the mask bits below position p (43_refsig.md R236). -/
def maskRank (mask : BitVec 12) (p : Nat) : Nat := (List.range p).countP fun q => mask.getLsbD q

/-- w: the mask bits of one resource block (43_refsig.md R236). -/
def maskWeight (mask : BitVec 12) : Nat := maskRank mask 12

/-- The sequence index of position p of the r-th block of the footprint (43_refsig.md R236). -/
def rsIndex (mask : BitVec 12) (moff r p : Nat) : Nat := moff + maskWeight mask * r + maskRank mask p

/-- What the i-th subcarrier of the footprint becomes: a DMRS symbol where the mask says so, else what it was
(43_refsig.md R236, R239). -/
def rsElement (c : BitVec 31) (mask : BitVec 12) (moff i : Nat) (old : RE) : RE :=
  if mask.getLsbD (i % 12) then ⟨Config.quantise (rsPoint c (rsIndex mask moff (i / 12) (i % 12))), .dmrs⟩ else old

/-- The frame symbol RS_GEN writes, SLOT·SPS + SYMB (43_refsig.md R236). -/
def State.rsColumn (s : State) : Nat := s.argSlot * s.eff.symsPerSlot.toNat + s.argSymb

/-- The column segment of the footprint, rewritten (43_refsig.md R239). -/
def State.rsGrid (s : State) (c : BitVec 31) : Memory RE :=
  Memory.writeRange RE.blank s.grid (gridKey (12 * s.argRb0) s.rsColumn) (12 * s.argNrbf) fun i =>
    rsElement c s.rs.mask s.rs.moff.toNat i (s.gridAt (12 * s.argRb0 + i) s.rsColumn)

/-- RS_CINIT (43_refsig.md R238). -/
def execRsCinit (sel : Sel) (s : State) : Host.Outcome State Fault Refusal :=
  s.settle (s.needConfig (.ok { s with rs := { s.rs with cinit := s.rsSeed sel } }))

/-- RS_GEN (43_refsig.md R239). -/
def execRsGen (sel : Sel) (s : State) : Host.Outcome State Fault Refusal :=
  s.settle (s.needConfig
    (needRange
      (s.argRb0 + s.argNrbf ≤ s.eff.nrb.toNat ∧ s.argSlot < s.eff.totalSlots.toNat
        ∧ s.argSymb < s.eff.symsPerSlot.toNat)
      (.ok { s with rs := { s.rs with cinit := s.rsSeed sel }, grid := s.rsGrid (s.rsSeed sel) })))

end Sys2Proof.Machine
end

