-- ==== Sys2Proof/Machine/Dispatch.lean ====
section
/-! DEFINITION. One arm per command: the rule a command's engine step performs (60_exceptions.md R304). -/

namespace Sys2Proof.Machine

def exec (i : Instr) (s : State) : Host.Outcome State Fault Refusal :=
  match i with
  | .nop => Sys2Proof.Machine.execNop s
  | .cfgApply => Sys2Proof.Machine.execCfgApply s
  | .gridClear => Sys2Proof.Machine.execGridClear s
  | .prbsSeed => Sys2Proof.Machine.execPrbsSeed s
  | .prbsGen cnt => Sys2Proof.Machine.execPrbsGen cnt s
  | .prbsSkip => Sys2Proof.Machine.execPrbsSkip s
  | .qamMap ord => Sys2Proof.Machine.execQamMap ord s
  | .qamFill tag ord => Sys2Proof.Machine.execQamFill tag ord s
  | .rsCinit sel => Sys2Proof.Machine.execRsCinit sel s
  | .rsGen sel => Sys2Proof.Machine.execRsGen sel s
  | .ofdmSym sym => Sys2Proof.Machine.execOfdmSym sym s
  | .ofdmSlot slot => Sys2Proof.Machine.execOfdmSlot slot s
  | .ofdmFrame => Sys2Proof.Machine.execOfdmFrame s

end Sys2Proof.Machine
end

