-- ==== Sys2Proof/Machine/Engine.lean ====
section
/-! DEFINITION. The engine step (60_exceptions.md R304). -/

namespace Sys2Proof.Machine

/-- One engine step on the pending word `w`: decode, perform or raise the first error, complete
(60_exceptions.md R302, R304). -/
def engineStep (w : BitVec 32) (s : State) : Host.Outcome State Fault Refusal :=
  match decode w with
  | .command i => finish (exec i s)
  | .illegal _ => finish (.next (s.raise .illegalCmd))

/-- The engine's turn: it is enabled exactly when a command is pending (00_scope.md R7); idleness preserves all
state (60_exceptions.md R319; log 8). -/
def engineTurn (s : State) : Host.Outcome State Fault Refusal :=
  match s.pending with
  | some w => engineStep w s
  | none => .next s

end Sys2Proof.Machine
end

