-- ==== Sys2Proof/Machine/Step.lean ====
section
/-! DEFINITION. One step of the two agents (00_scope.md R7). -/

namespace Sys2Proof.Machine

/-- Who moves next is read from the agenda; when it is exhausted the engine moves, so that a pending command is
always performed in the end (00_scope.md R7, 60_exceptions.md R305; log 7). -/
def step (s : State) : Host.Outcome State Fault Refusal :=
  match s.env.agenda with
  | .host a :: _ => hostAccess a s.popTurn
  | .engine :: _ => engineTurn s.popTurn
  | .powerOn :: _ => .next s.popTurn.toReset
  | [] => engineTurn s

/-- The command word whose low `nbits` bits are those of `w`, in the pending slot where the engine takes its
next command, with the engine to move: what an accepted host write to CMD leaves (10_state.md R36; log 9). -/
def State.withFetchWord (s : State) (nbits w : Nat) : State :=
  { s with
    pending := some (BitVec.ofNat 32 (w % 2 ^ nbits))
    env := { s.env with
      agenda :=
        match s.env.agenda with
        | [] => []
        | .engine :: rest => .engine :: rest
        | turns => .engine :: turns } }

end Sys2Proof.Machine
end

