-- ==== Sys2Proof/Machine/Ideal.lean ====
section
/-! DEFINITION. Ideal complex values (00_scope.md R12): what a point is as a complex number, and the ideal
inverse transform of 44_ofdm.md R262. No step computes with them; statements do. -/

namespace Sys2Proof.Machine

/-- The complex number `(a + j·b)/√norm` (42_qam.md R200). -/
noncomputable def pointComplex (d : Point) : ℂ :=
  ((d.a : ℂ) + (d.b : ℂ) * Complex.I) / ((Real.sqrt (d.norm : ℝ) : ℝ) : ℂ)

/-- idft(Y)[i] = (1/N) · Σ Y[k]·exp(+j·2π·k·i/N) (44_ofdm.md R262). -/
noncomputable def idealIdft (n : Nat) (y : Fin n → ℂ) (i : Nat) : ℂ :=
  (1 / (n : ℂ)) * ∑ k : Fin n, y k * Complex.exp (2 * Real.pi * Complex.I * (k.val : ℂ) * (i : ℂ) / (n : ℂ))

/-- The ideal implementation with quantiser `q`: P_Q of the ideal transform (44_ofdm.md R262). -/
noncomputable def idealTransform (q : ℂ → Sample) : Transform := fun n y i => q (idealIdft n y i.val)

end Sys2Proof.Machine
end

