-- ==== Sys2Proof/Machine/Program.lean ====
section
/-! DEFINITION. Host programs: the accesses and pseudo-instructions of the assembler as turns of the agenda
(30_encoding.md R121, R122). -/

namespace Sys2Proof.Machine

/-- `wr NAME, value` (30_encoding.md R121). -/
def wr (r : RegName) (v : BitVec 32) : Turn := .host (.regWrite 32 r.offset v)

/-- `rd NAME` (30_encoding.md R121). -/
def rd (r : RegName) : Turn := .host (.regRead 32 r.offset)

/-- `gw k, l, v, t` (30_encoding.md R121). -/
def gw (k l : Nat) (v : Sample) (t : BitVec 3) : Turn := .host (.gridWrite k l v t)

/-- `gr k, l` (30_encoding.md R121). -/
def gr (k l : Nat) : Turn := .host (.gridRead k l)

/-- `or n`, a read of OUT (30_encoding.md R121). -/
def outRd (n : Nat) : Turn := .host (.outRead n)

/-- A command mnemonic is exactly a write of its word to CMD (30_encoding.md R121). -/
def issue (i : Instr) : Turn := wr .cmd (encode i)

/-- `wait`: reads of STATUS until BUSY reads 0; here `polls` reads come before the engine's step
(30_encoding.md R122, 60_exceptions.md R305). -/
def waitFor (polls : Nat) : List Turn := List.replicate polls (rd .status) ++ [.engine, rd .status]

/-- `sync X` (30_encoding.md R122). -/
def sync (i : Instr) (polls : Nat) : List Turn := issue i :: waitFor polls

/-- `seed c` (30_encoding.md R122). -/
def seedProgram (c : BitVec 32) (polls : Nat) : List Turn := wr .arg0 c :: sync .prbsSeed polls

/-- `ackall` (30_encoding.md R122). -/
def ackAll : List Turn := [wr .status 0x0000000C#32]

/-- `region rb0, nrb, l0, nl` (30_encoding.md R122). -/
def regionProgram (rb0 nrb l0 nl : BitVec 32) : List Turn :=
  [wr .arg0 (nrb <<< 16 ||| rb0), wr .arg1 (nl <<< 16 ||| l0)]

/-- `rsidx slot, symb, ssb, hf` (30_encoding.md R122). -/
def rsidxProgram (slot symb ssb hf : BitVec 32) : List Turn :=
  [wr .arg1 (hf <<< 18 ||| ssb <<< 12 ||| symb <<< 8 ||| slot)]

end Sys2Proof.Machine
end

