-- ==== Sys2Proof/Safety.lean ====
section
/-! DEFINITION. What counts as a sound state and a safe run, in the terms statements use. -/

namespace Sys2Proof.Machine

/-- The engine moves next (00_scope.md R7; log 7). -/
def EngineMoves (s : State) : Prop := s.env.agenda = [] ∨ ∃ rest, s.env.agenda = .engine :: rest

/-- The host moves next, with the access `a` (00_scope.md R7; log 7). -/
def HostMoves (s : State) (a : HostAccess) : Prop := ∃ rest, s.env.agenda = .host a :: rest

/-- GRID and OUT are in canonical form (log 14). -/
def MemoriesCanonical (s : State) : Prop := Memory.wf RE.blank s.grid ∧ Memory.wf Sample.zero s.out

/-- ERR_CODE is 0 exactly when ERR is 0, and otherwise one of the codes of 60_exceptions.md R300
(10_state.md R35). -/
def ReportConsistent (s : State) : Prop :=
  (s.err = false ∧ s.errCode = 0) ∨ (s.err = true ∧ ∃ e : CmdError, s.errCode = e.code)

/-- A staged configuration CFG_APPLY accepts (40_config.md R141). -/
def StagedConfig.Accepted (c : StagedConfig) : Prop := c.firstError Config.limits = none

/-- The effective registers are those of the last successful CFG_APPLY, or the reset values while there is no
effective configuration (10_state.md R43). -/
def EffectiveLatched (s : State) : Prop :=
  (s.cfgValid = false ∧ s.eff = EffectiveConfig.zero) ∨ ∃ c : StagedConfig, c.Accepted ∧ s.eff = c.derive

/-- GRID and OUT list only elements that exist (10_state.md R51, R53). -/
def MemoriesExist (s : State) : Prop :=
  (s.cfgValid = false → s.grid = [] ∧ s.out = [])
    ∧ (∀ e ∈ s.grid, e.1 % gridStride < s.eff.nSubcarriers.toNat ∧ e.1 / gridStride < s.eff.totalSymbols.toNat)
    ∧ (∀ e ∈ s.out, e.1 < s.eff.totalSamples.toNat)

/-- The invariant of the machine: what holds after reset and every step keeps. -/
def Sound (s : State) : Prop :=
  MemoriesCanonical s ∧ ReportConsistent s ∧ EffectiveLatched s ∧ MemoriesExist s

/-- The PRBS registers stand at bit `n` of the stream of seed `c` (41_prbs.md R185). -/
def StreamAt (c : BitVec 31) (n : Nat) (p : PrbsRegs) : Prop :=
  (∀ i, i < 31 → p.x1.getLsbD i = goldX1 (goldOffset + n + i))
    ∧ (∀ i, i < 31 → p.x2.getLsbD i = goldX2 c (goldOffset + n + i))
    ∧ p.pos = BitVec.ofNat 32 n

/-- A run of `n` steps that meets no model fault (60_exceptions.md R307). -/
def FaultFree (n : Nat) (s : State) : Prop := ∃ t, Sys2Proof.core.run n s = .next t

end Sys2Proof.Machine
end

