-- ==== Sys2Proof/Certificates/Slice0/Obligations.lean ====
section
/-! DEFINITION. The statements for the provers; OBLIGATIONS.json lists them with their rules of spec/. -/

open Sys2Proof Sys2Proof.Machine

/-! ### Encoding -/

/-- Seven command words, one per format, each written out from the opcode map, decode to the command they stand for.
(30_encoding.md R111; 30_encoding.md R118) -/
def Obligations.OpcodeMapWords : Prop :=
  decode 0x00000000#32 = .command .nop
    ∧ decode 0x11000020#32 = .command (.prbsGen 32#6)
    ∧ decode 0x20000004#32 = .command (.qamMap .qam256)
    ∧ decode 0x21000501#32 = .command (.qamFill .dmrs .qpsk)
    ∧ decode 0x31000002#32 = .command (.rsGen .raw)
    ∧ decode 0x4000008C#32 = .command (.ofdmSym 140#12)
    ∧ decode 0x41000001#32 = .command (.ofdmSlot 1#8)

/-- For every well-formed command, with every operand at every value the encoding admits, decode of encode is that
command. (30_encoding.md R111; 30_encoding.md R112; 30_encoding.md R118) -/
def Obligations.DecodeEncode : Prop :=
  ∀ i : Instr, i.WellFormed = true → decode (encode i) = .command i

/-- If a word decodes to a command, the command is well formed and the word is its encoding: no two words are the same
command and no bit is dropped. (30_encoding.md R110; 30_encoding.md R112) -/
def Obligations.EncodeDecode : Prop :=
  ∀ (w : BitVec 32) (i : Instr), decode w = .command i → i.WellFormed = true ∧ encode i = w

/-- A word whose bits 31 to 24 are none of the thirteen opcodes is refused as a reserved opcode, and a word with one
of the thirteen never is. (30_encoding.md R112; 30_encoding.md R119) -/
def Obligations.ReservedOpcodesRefused : Prop :=
  ∀ w : BitVec 32,
    decode w = .illegal .reservedOpcode
      ↔ (w.extractLsb' 24 8).toNat ∉
          [0x00, 0x01, 0x02, 0x10, 0x11, 0x12, 0x20, 0x21, 0x30, 0x31, 0x40, 0x41, 0x42]

/-- When the engine moves and the pending word is not a command, the step sets ERR, writes code 0x12 to ERR_CODE
unless an earlier error is recorded, sets DONE, empties the pending slot, and changes nothing else of the block.
(30_encoding.md R112; 30_encoding.md R119; 60_exceptions.md R302; 60_exceptions.md R304) -/
def Obligations.IllegalCommandReports : Prop :=
  ∀ (s : State) (w : BitVec 32) (why : Illegal),
    EngineMoves s → s.pending = some w → decode w = .illegal why →
    step s = .next { s.popTurn with
      err := true, errCode := if s.err then s.errCode else 0x12#8, done := true, pending := none }

/-! ### Step -/

/-- When the engine moves and the pending word decodes to a command, the step answers as exec of that command does at
the state whose turn is taken, with DONE set and the pending slot emptied. (60_exceptions.md R304; 00_scope.md R7) -/
def Obligations.StepRunsDecoded : Prop :=
  ∀ (s : State) (w : BitVec 32) (i : Instr),
    EngineMoves s → s.pending = some w → decode w = .command i →
    ∀ u, exec i s.popTurn = .next u → step s = .next { u with done := true, pending := none }

/-- From a state with nothing pending whose agenda begins with the host's write of a well-formed command's word to CMD
and the engine's turn, whatever turns follow, two steps answer what exec of that command answers, completed.
(10_state.md R36; 60_exceptions.md R304) -/
def Obligations.AcceptedCommandRunsNext : Prop :=
  ∀ (s : State) (i : Instr) (rest : List Turn) (u : State),
    s.pending = none → i.WellFormed = true → s.env.agenda = issue i :: .engine :: rest →
    exec i { s.popTurn.popTurn with pending := some (encode i) } = .next u →
    Sys2Proof.core.run 2 s = .next { u with done := true, pending := none }

/-- When the engine moves and no command is pending, the step changes nothing of the block; only the turn is taken.
That an idle engine's turn is a step at all is the model's choice (log 8). (60_exceptions.md R319;
93_implementation_defined.md I20) -/
def Obligations.IdlenessPreservesState : Prop :=
  ∀ s : State, EngineMoves s → s.pending = none → step s = .next s.popTurn

/-- Every command answers a next state in every state, so command errors are reported and never stop the machine; a
run of any length from a state whose agenda holds no host access meets no model fault. (60_exceptions.md R303;
60_exceptions.md R306; 60_exceptions.md R307) -/
def Obligations.CommandsNeverFault : Prop :=
  (∀ (i : Instr) (s : State), ∃ t, exec i s = .next t)
    ∧ ∀ (n : Nat) (s : State), (∀ turn ∈ s.env.agenda, ∀ a, turn ≠ .host a) → FaultFree n s

/-- From every state with a command pending from which a run of one step more than the agenda has turns meets no model
fault, the run reaches, after no more steps than the agenda has turns, a state that still has that command pending, in
which either the engine moves and the next step performs the command (what exec answers, or ILLEGAL_CMD for a word
that is no command, with DONE set and the pending slot emptied), or a power-on reset or the host's soft reset comes
next; and every such run ends with nothing pending. The form of the schedule is the model's (log 7). (60_exceptions.md
R304; 60_exceptions.md R305; 70_reset_and_hazards.md R341) -/
def Obligations.PendingCommandIsPerformed : Prop :=
  (∀ (s : State) (w : BitVec 32), s.pending = some w → FaultFree (s.env.agenda.length + 1) s →
      ∃ k u, k ≤ s.env.agenda.length ∧ Sys2Proof.core.run k s = .next u ∧ u.pending = some w
        ∧ ((EngineMoves u
              ∧ ((∃ i v, decode w = .command i ∧ exec i u.popTurn = .next v
                    ∧ step u = .next { v with done := true, pending := none })
                ∨ (∃ why, decode w = .illegal why
                    ∧ step u = .next { u.popTurn with
                        err := true, errCode := if u.err then u.errCode else 0x12#8, done := true
                        pending := none })))
            ∨ (∃ rest, u.env.agenda = .powerOn :: rest)
            ∨ ∃ v : BitVec 32, v.getLsbD 0 = true ∧ HostMoves u (.regWrite 32 0x004#12 v)))
    ∧ ∀ s t : State, Sys2Proof.core.run (s.env.agenda.length + 1) s = .next t → t.pending = none

/-! ### Errors, status and interrupt -/

/-- Raising an error sets ERR; ERR_CODE takes the error's code, one of 0x01 to 0x08 and 0x10 to 0x14 as listed, when
ERR was 0 and is unchanged when ERR was 1; nothing else changes. (60_exceptions.md R300; 60_exceptions.md R301;
10_state.md R35; 60_exceptions.md R309) -/
def Obligations.FirstErrorWins : Prop :=
  ∀ (s : State) (e : CmdError),
    ∃ n, (e, n) ∈ [(CmdError.cfgCpInvalid, 0x01#8), (.cfgCellRange, 0x02#8), (.cfgMuRange, 0x03#8),
        (.cfgCpMismatch, 0x04#8), (.cfgFsNotInteger, 0x05#8), (.cfgNfftSmall, 0x06#8), (.cfgNfftLimit, 0x07#8),
        (.cfgNrbRange, 0x08#8), (.notConfigured, 0x10#8), (.range, 0x11#8), (.illegalCmd, 0x12#8), (.busy, 0x13#8),
        (.extCpUnsupported, 0x14#8)]
      ∧ (s.err = false → s.raise e = { s with err := true, errCode := n })
      ∧ (s.err = true → s.raise e = s)

/-- When the host moves with a write to STATUS, bit 2 of the value clears DONE, bit 3 clears ERR and ERR_CODE, a 0
leaves them, and nothing else of the block changes. (10_state.md R34; 60_exceptions.md R308) -/
def Obligations.StatusWriteAcknowledges : Prop :=
  ∀ (s : State) (v : BitVec 32), HostMoves s (.regWrite 32 0x008#12 v) →
    step s = .next { s.popTurn with
      done := if v.getLsbD 2 then false else s.done
      err := if v.getLsbD 3 then false else s.err
      errCode := if v.getLsbD 3 then 0 else s.errCode }

/-- CMD reads 0. A host write of w to CMD with nothing pending makes w pending and BUSY 1 and changes nothing else;
with a command pending it raises BUSY (0x13) at once, leaves the pending command, and discards w. (R36) -/
def Obligations.CmdWriteAcceptedOrBusy : Prop :=
  ∀ (s : State) (w : BitVec 32), s.readReg .cmd = 0
    ∧ (HostMoves s (.regWrite 32 0x010#12 w) →
        (s.pending = none →
          step s = .next { s.popTurn with pending := some w } ∧ ({ s with pending := some w } : State).busy = true)
        ∧ (∀ p, s.pending = some p →
          step s = .next { s.popTurn with err := true, errCode := if s.err then s.errCode else 0x13#8 }))

/-- Bit 0 of the value read from STATUS is 1 exactly when a command is pending, bits 1 to 3 are CFG_VALID, DONE and
ERR, and every other bit reads 0. (10_state.md R34; 10_state.md R48) -/
def Obligations.StatusWordBits : Prop :=
  ∀ s : State,
    (s.readReg .status).getLsbD 0 = s.pending.isSome ∧ (s.readReg .status).getLsbD 1 = s.cfgValid
      ∧ (s.readReg .status).getLsbD 2 = s.done ∧ (s.readReg .status).getLsbD 3 = s.err
      ∧ ∀ i, 4 ≤ i → (s.readReg .status).getLsbD i = false

/-- IRQ is high exactly when CTRL.IRQ_EN is 1 and DONE or ERR is 1: a function of the state, not a stored field. (R57)
-/
def Obligations.InterruptLine : Prop :=
  ∀ s : State, s.irq = true ↔ s.irqEn = true ∧ (s.done = true ∨ s.err = true)

/-! ### Registers, ports and hazards -/

/-- In the reset state ID reads 0x504E0007, every other register of the window reads 0, nothing is pending, and the
interrupt line is low. (10_state.md R58; 70_reset_and_hazards.md R340) -/
def Obligations.ResetValues : Prop :=
  (∀ r : RegName, State.reset.readReg r = if r = .id then 0x504E0007#32 else 0)
    ∧ State.reset.pending = none ∧ State.reset.irq = false

/-- After a power-on reset, and after a host write to CTRL whose bit 0 is 1, whatever its bit 1 was and whether or not
a command was pending, the block is in its reset state; a CTRL write with bit 0 clear changes only IRQ_EN, to bit 1.
That the environment stays is the model's (log 16). (10_state.md R33; 70_reset_and_hazards.md R340;
70_reset_and_hazards.md R341) -/
def Obligations.ResetRestoresResetState : Prop :=
  ∀ s : State,
    (∀ rest, s.env.agenda = .powerOn :: rest → step s = .next { State.reset with env := s.popTurn.env })
      ∧ ∀ v : BitVec 32, HostMoves s (.regWrite 32 0x004#12 v) →
        (v.getLsbD 0 = true → step s = .next { State.reset with env := s.popTurn.env })
          ∧ (v.getLsbD 0 = false → step s = .next { s.popTurn with irqEn := v.getLsbD 1 })

/-- When the host moves with a register read or write whose width is not 32 bits or whose offset is not a multiple of
4, the step is the model fault BUS_ERROR. (20_memory.md R81) -/
def Obligations.MisalignedAccessFaults : Prop :=
  ∀ (s : State) (width : Nat) (off : BitVec 12) (v : BitVec 32), (width ≠ 32 ∨ off.toNat % 4 ≠ 0) →
    (HostMoves s (.regRead width off) → step s = .fault .busError)
      ∧ (HostMoves s (.regWrite width off v) → step s = .fault .busError)

/-- At a multiple of 4 that is the offset of no register, a host read returns 0 and a host write changes nothing of
the block, pending command or not. (10_state.md R31) -/
def Obligations.UnlistedOffsetsReadZero : Prop :=
  ∀ (s : State) (off : BitVec 12) (v : BitVec 32), off.toNat % 4 = 0 → (∀ r : RegName, r.offset ≠ off) →
    (HostMoves s (.regRead 32 off) → step s = .next (s.popTurn.observe (.reg off 0)))
      ∧ (HostMoves s (.regWrite 32 off v) → step s = .next s.popTurn)

/-- With the whole register map written out, offset and field of the state for every register: each register is at its
offset, and when the host moves with a 32-bit read of that offset while no pending command writes the register, the
read returns the listed field, and nothing of the block changes. That a pending word that is no command uses nothing
is the model's reading (log 12). (10_state.md R30; 10_state.md R31; 10_state.md R32; 20_memory.md R83;
70_reset_and_hazards.md R351) -/
def Obligations.ReadsReturnCurrentValue : Prop :=
  ∀ (s : State) (r : RegName),
    let entry : BitVec 12 × BitVec 32 :=
      match r with
        | .id => (0x000#12, 0x504E0007#32)
        | .ctrl => (0x004#12, if s.irqEn then 0x2#32 else 0#32)
        | .status => (0x008#12, BitVec.ofNat 32
            (s.pending.isSome.toNat + 2 * s.cfgValid.toNat + 4 * s.done.toNat + 8 * s.err.toNat))
        | .errCode => (0x00C#12, s.errCode.setWidth 32)
        | .cmd => (0x010#12, 0#32)
        | .arg0 => (0x014#12, s.arg0)
        | .arg1 => (0x018#12, s.arg1)
        | .arg2 => (0x01C#12, s.arg2)
        | .cfgNum => (0x020#12, BitVec.ofNat 32 (s.cfg.mu.toNat + 16 * s.cfg.cp.toNat))
        | .cfgNrb => (0x024#12, s.cfg.nrb.setWidth 32)
        | .cfgCell => (0x028#12, s.cfg.cell.setWidth 32)
        | .cfgFs => (0x02C#12, s.cfg.fs)
        | .cfgNfft => (0x030#12, s.cfg.nfft.setWidth 32)
        | .effNum => (0x040#12, BitVec.ofNat 32 (s.eff.mu.toNat + 16 * s.eff.cp.toNat))
        | .effNrb => (0x044#12, s.eff.nrb.setWidth 32)
        | .effCell => (0x048#12, s.eff.cell.setWidth 32)
        | .effFs => (0x04C#12, s.eff.fs)
        | .scsHz => (0x050#12, s.eff.scsHz)
        | .slotsPerSubframe => (0x054#12, s.eff.slotsPerSubframe.setWidth 32)
        | .symsPerSlot => (0x058#12, s.eff.symsPerSlot.setWidth 32)
        | .nUseful => (0x05C#12, s.eff.nUseful)
        | .nFft => (0x060#12, s.eff.nFft.setWidth 32)
        | .cpShort => (0x064#12, s.eff.cpShort)
        | .cpLong => (0x068#12, s.eff.cpLong)
        | .slotSamples => (0x06C#12, s.eff.slotSamples)
        | .totalSlots => (0x070#12, s.eff.totalSlots.setWidth 32)
        | .totalSymbols => (0x074#12, s.eff.totalSymbols.setWidth 32)
        | .totalSamples => (0x078#12, s.eff.totalSamples)
        | .nSubcarriers => (0x07C#12, s.eff.nSubcarriers.setWidth 32)
        | .prbsCinit => (0x0C0#12, s.prbs.cinit.setWidth 32)
        | .prbsX1 => (0x0C4#12, s.prbs.x1.setWidth 32)
        | .prbsX2 => (0x0C8#12, s.prbs.x2.setWidth 32)
        | .prbsPos => (0x0CC#12, s.prbs.pos)
        | .prbsOut => (0x0D0#12, s.prbs.out)
        | .mapI => (0x0E0#12, s.map.i)
        | .mapQ => (0x0E4#12, s.map.q)
        | .mapNorm => (0x0E8#12, s.map.norm.setWidth 32)
        | .rsMask => (0x0F0#12, s.rs.mask.setWidth 32)
        | .rsMoff => (0x0F4#12, s.rs.moff.setWidth 32)
        | .rsCinit => (0x0F8#12, s.rs.cinit.setWidth 32)
        | .cpLen i => (0x080#12 + BitVec.ofNat 12 (4 * i.val), s.eff.cpLen.getD i.val 0)
    r.offset = entry.1
      ∧ (HostMoves s (.regRead 32 entry.1) →
          (∀ w i, s.pending = some w → decode w = .command i → r ∉ (footprint i).writeRegs) →
          step s = .next (s.popTurn.observe (.reg entry.1 entry.2)))

/-- While a command is pending, a host read of a register in its write set returns a fresh free value in the
register's used bits, a read of an existing GRID element that it writes a fresh Sample and tag code, and a read of an
existing OUT element that it writes a fresh Sample; nothing of the block changes. That a register's unused bits still
read 0 is the model's reading (log 10), and so is it that the tag code of a GRID read is free too (log 21), where the
rule speaks of a Sample only. (70_reset_and_hazards.md R351) -/
def Obligations.HazardousReadIsAnyValue : Prop :=
  ∀ (s : State) (w : BitVec 32) (i : Instr), s.pending = some w → decode w = .command i →
    (∀ r : RegName, r ∈ (footprint i).writeRegs → HostMoves s (.regRead 32 r.offset) →
      step s = .next ((s.popTurn.drew 1).observe (.reg r.offset (Config.drawWord s.env.draws &&& r.usedBits))))
      ∧ (∀ k l, (footprint i).writesGrid = true → s.gridExists k l = true → HostMoves s (.gridRead k l) →
        step s = .next ((s.popTurn.drew 1).observe
          (.grid k l (Config.drawSample s.env.draws) (Config.drawTag s.env.draws))))
      ∧ ∀ n, (footprint i).writesOut = true → s.outExists n = true → HostMoves s (.outRead n) →
        step s = .next ((s.popTurn.drew 1).observe (.out n (Config.drawSample s.env.draws)))

/-- With every command's read and write set written out: while a command is pending, a 32-bit host write to a register
in its read or write set, and a GRID port write (of an existing element, with a tag code that is not reserved) while
it reads or writes GRID, are the model fault HAZARD. For read-only registers of the sets this is the model's reading
(log 13), and so is the order of this fault and BUS_ERROR (log 11). (70_reset_and_hazards.md R345;
70_reset_and_hazards.md R352; 60_exceptions.md R307) -/
def Obligations.HazardousWriteFaults : Prop :=
  (let config : List RegName :=
        [.effNum, .effNrb, .effCell, .effFs, .scsHz, .slotsPerSubframe, .symsPerSlot, .nUseful, .nFft, .cpShort,
          .cpLong, .slotSamples, .totalSlots, .totalSymbols, .totalSamples, .nSubcarriers]
          ++ (List.finRange 14).map .cpLen
      ∀ i : Instr,
        ((footprint i).readRegs, (footprint i).writeRegs, (footprint i).readsGrid, (footprint i).writesGrid,
            (footprint i).writesOut) =
          match i with
          | .nop => ([], [], false, false, false)
          | .cfgApply => ([.cfgNum, .cfgNrb, .cfgCell, .cfgFs, .cfgNfft], config, false, true, true)
          | .gridClear => (config, [], false, true, false)
          | .prbsSeed => ([.arg0], [.prbsCinit, .prbsX1, .prbsX2, .prbsPos, .prbsOut], false, false, false)
          | .prbsGen _ =>
            ([.prbsX1, .prbsX2, .prbsPos], [.prbsX1, .prbsX2, .prbsPos, .prbsOut], false, false, false)
          | .prbsSkip =>
            ([.arg0, .prbsX1, .prbsX2, .prbsPos], [.prbsX1, .prbsX2, .prbsPos], false, false, false)
          | .qamMap _ => ([.arg0], [.mapI, .mapQ, .mapNorm], false, false, false)
          | .qamFill _ _ => ([.arg0, .arg1] ++ config, [], false, true, false)
          | .rsCinit _ => ([.arg1, .arg2] ++ config, [.rsCinit], false, false, false)
          | .rsGen _ => ([.arg0, .arg1, .arg2, .rsMask, .rsMoff] ++ config, [.rsCinit], false, true, false)
          | .ofdmSym _ | .ofdmSlot _ | .ofdmFrame => (config, [], true, false, true))
    ∧ ∀ (s : State) (w : BitVec 32) (i : Instr), s.pending = some w → decode w = .command i →
      (∀ (r : RegName) (v : BitVec 32), (r ∈ (footprint i).readRegs ∨ r ∈ (footprint i).writeRegs) →
        HostMoves s (.regWrite 32 r.offset v) → step s = .fault .hazard)
        ∧ ∀ (k l : Nat) (v : Sample) (tag : Tag),
          ((footprint i).readsGrid = true ∨ (footprint i).writesGrid = true) →
          s.gridExists k l = true → HostMoves s (.gridWrite k l v tag.code) → step s = .fault .hazard

/-- In every state, every register's value has only 0s outside the bits the register map gives it. (10_state.md R30;
10_state.md R31) -/
def Obligations.UnusedBitsReadZero : Prop :=
  ∀ (s : State) (r : RegName), s.readReg r &&& ~~~r.usedBits = 0

/-- When the host moves with a 32-bit write of v to the offset, written out, of ARG0 to ARG2, CFG_NUM to CFG_NFFT,
RS_MASK or RS_MOFF and no pending command uses that register, the step changes only the listed field, to the listed
bits of v; the register then reads v in its used bits, the written-out mask, and every other register reads as before.
That a pending word that is no command uses nothing is the model's reading (log 12). (10_state.md R30; 10_state.md
R31; 10_state.md R37; 20_memory.md R83) -/
def Obligations.PlainRegistersReadBack : Prop :=
  ∀ (s : State) (v : BitVec 32) (r : RegName) (off : BitVec 12) (mask : BitVec 32) (t : State),
    (r, off, mask, t) ∈
      ([ (.arg0, 0x014#12, 0xFFFFFFFF#32, { s.popTurn with arg0 := v }),
         (.arg1, 0x018#12, 0xFFFFFFFF#32, { s.popTurn with arg1 := v }),
         (.arg2, 0x01C#12, 0xFFFFFFFF#32, { s.popTurn with arg2 := v }),
         (.cfgNum, 0x020#12, 0x00000037#32,
           { s.popTurn with cfg := { s.cfg with mu := v.extractLsb' 0 3, cp := v.extractLsb' 4 2 } }),
         (.cfgNrb, 0x024#12, 0x000001FF#32, { s.popTurn with cfg := { s.cfg with nrb := v.extractLsb' 0 9 } }),
         (.cfgCell, 0x028#12, 0x000003FF#32, { s.popTurn with cfg := { s.cfg with cell := v.extractLsb' 0 10 } }),
         (.cfgFs, 0x02C#12, 0xFFFFFFFF#32, { s.popTurn with cfg := { s.cfg with fs := v } }),
         (.cfgNfft, 0x030#12, 0x0000FFFF#32, { s.popTurn with cfg := { s.cfg with nfft := v.extractLsb' 0 16 } }),
         (.rsMask, 0x0F0#12, 0x00000FFF#32, { s.popTurn with rs := { s.rs with mask := v.extractLsb' 0 12 } }),
         (.rsMoff, 0x0F4#12, 0x0000FFFF#32, { s.popTurn with rs := { s.rs with moff := v.extractLsb' 0 16 } }) ]
        : List (RegName × BitVec 12 × BitVec 32 × State)) →
    HostMoves s (.regWrite 32 off v) →
    (∀ w i, s.pending = some w → decode w = .command i →
      r ∉ (footprint i).readRegs ∧ r ∉ (footprint i).writeRegs) →
    step s = .next t ∧ t.readReg r = v &&& mask ∧ ∀ r', r' ≠ r → t.readReg r' = s.readReg r'

/-- When the host moves with a 32-bit write to a register that is none of CTRL, STATUS, CMD, the argument, staging,
RS_MASK and RS_MOFF registers, and no pending command uses it, nothing of the block changes. That a pending word that
is no command uses nothing is the model's reading (log 12). (10_state.md R31; 20_memory.md R83) -/
def Obligations.ReadOnlyRegistersIgnoreWrites : Prop :=
  ∀ (s : State) (r : RegName) (v : BitVec 32), HostMoves s (.regWrite 32 r.offset v) →
    r ∉ [RegName.ctrl, .status, .cmd, .arg0, .arg1, .arg2, .cfgNum, .cfgNrb, .cfgCell, .cfgFs, .cfgNfft, .rsMask,
      .rsMoff] →
    s.writeHazard r = false → step s = .next s.popTurn

/-- When the host moves with a GRID write of an element that exists, with a tag code that is not reserved, and the
pending command does not use GRID, that element becomes the value and tag written; every other element, OUT and every
register are unchanged. That a pending word that is no command uses nothing is the model's reading (log 12).
(20_memory.md R84) -/
def Obligations.GridPortWrite : Prop :=
  ∀ (s : State) (k l : Nat) (v : Sample) (code : BitVec 3) (tag : Tag),
    HostMoves s (.gridWrite k l v code) → s.cfgValid = true → k < s.eff.nSubcarriers.toNat →
    l < s.eff.totalSymbols.toNat → Tag.ofCode code = some tag → s.gridWriteHazard = false →
    ∃ t, step s = .next t ∧ t = { s.popTurn with grid := t.grid } ∧ t.gridAt k l = ⟨v, tag⟩
      ∧ ∀ k' l', k' < gridStride → (k', l') ≠ (k, l) → t.gridAt k' l' = s.gridAt k' l'

/-- In every state every OUT write is the model fault BUS_ERROR. With nothing pending or any word pending but
CFG_APPLY's, a GRID access when unconfigured or out of range, a GRID write with tag code 6 or 7, and an OUT read when
unconfigured or out of range are BUS_ERROR. That BUS_ERROR comes before HAZARD where the pending command uses GRID is
the model's reading (log 11). (20_memory.md R84; 20_memory.md R85; 70_reset_and_hazards.md R353) -/
def Obligations.GridPortRefusals : Prop :=
  ∀ s : State,
    (∀ n v, HostMoves s (.outWrite n v) → step s = .fault .busError)
      ∧ (s.pending ≠ some 0x01000000#32 →
        (∀ k l, (s.cfgValid = false ∨ s.eff.nSubcarriers.toNat ≤ k ∨ s.eff.totalSymbols.toNat ≤ l) →
          (HostMoves s (.gridRead k l) → step s = .fault .busError)
            ∧ ∀ v c, HostMoves s (.gridWrite k l v c) → step s = .fault .busError)
        ∧ (∀ k l v c, (c = 6#3 ∨ c = 7#3) → HostMoves s (.gridWrite k l v c) → step s = .fault .busError)
        ∧ ∀ n, (s.cfgValid = false ∨ s.eff.totalSamples.toNat ≤ n) → HostMoves s (.outRead n) →
            step s = .fault .busError)

/-- While no pending command writes GRID, a host read of a GRID element that exists returns its value and its tag
code; while no pending command writes OUT, a host read of an OUT sample that exists returns it; nothing of the block
changes. That a pending word that is no command uses nothing is the model's reading (log 12). (20_memory.md R85;
70_reset_and_hazards.md R351) -/
def Obligations.MemoryPortReads : Prop :=
  ∀ s : State, s.cfgValid = true →
    ((∀ w i, s.pending = some w → decode w = .command i → (footprint i).writesGrid = false) →
      ∀ k l, HostMoves s (.gridRead k l) → k < s.eff.nSubcarriers.toNat → l < s.eff.totalSymbols.toNat →
        step s = .next (s.popTurn.observe (.grid k l (s.gridAt k l).val (s.gridAt k l).tag.code)))
      ∧ ((∀ w i, s.pending = some w → decode w = .command i → (footprint i).writesOut = false) →
        ∀ n, HostMoves s (.outRead n) → n < s.eff.totalSamples.toNat →
          step s = .next (s.popTurn.observe (.out n (s.outAt n))))

/-- For every command and state: every register outside the command's write set, other than STATUS and ERR_CODE, reads
as before; GRID is unchanged unless the command writes GRID, OUT unless it writes OUT; the pending slot, IRQ_EN and
DONE are unchanged. (70_reset_and_hazards.md R345; 41_prbs.md R186; 10_state.md R49) -/
def Obligations.CommandFootprints : Prop :=
  ∀ (i : Instr) (s t : State), exec i s = .next t →
    (∀ r : RegName, r ∉ (footprint i).writeRegs → r ≠ .status → r ≠ .errCode → t.readReg r = s.readReg r)
      ∧ ((footprint i).writesGrid = false → t.grid = s.grid) ∧ ((footprint i).writesOut = false → t.out = s.out)
      ∧ t.pending = s.pending ∧ t.irqEn = s.irqEn ∧ t.done = s.done

/-! ### Configuration and housekeeping -/

/-- Under exactly the nine checks of the spec, CFG_APPLY answers a next state with CFG_VALID 1, the staged values and
the derived values in the effective registers (none truncated), fourteen CP lengths, every RE (zero, EMPTY) and every
output sample zero, and every other field unchanged. (40_config.md R140; 40_config.md R141; 40_config.md R142;
40_config.md R144; 40_config.md R147; 40_config.md R148; 40_config.md R150; 40_config.md R152) -/
def Obligations.CfgApplySucceeds : Prop :=
  ∀ (s : State) (mu fs nrb nfft n fft : Nat), mu = s.cfg.mu.toNat → fs = s.cfg.fs.toNat → nrb = s.cfg.nrb.toNat →
    nfft = s.cfg.nfft.toNat → n = fs / (15000 * 2 ^ mu) → fft = (if nfft = 0 then nextPow2 n else nfft) →
    (s.cfg.cp = 0 ∨ s.cfg.cp = 1) → s.cfg.cell.toNat ≤ 1007 → mu ≤ 4 → (s.cfg.cp = 1 → mu = 2) →
    1 ≤ nrb → nrb ≤ Config.nrbMax → fs ≠ 0 → fs % (15000 * 2 ^ mu) = 0 →
    (nfft = 0 ∨ (n ≤ nfft ∧ ∃ k, nfft = 2 ^ k)) → fft ≤ Config.nfftMax → 12 * nrb ≤ n →
    ∃ t, exec .cfgApply s = .next t
      ∧ t = { s with cfgValid := true, eff := t.eff, grid := t.grid, out := t.out }
      ∧ (t.eff.mu = s.cfg.mu ∧ t.eff.cp = s.cfg.cp ∧ t.eff.nrb = s.cfg.nrb ∧ t.eff.cell = s.cfg.cell
        ∧ t.eff.fs = s.cfg.fs)
      ∧ (t.eff.scsHz.toNat = 15000 * 2 ^ mu ∧ t.eff.slotsPerSubframe.toNat = 2 ^ mu
        ∧ t.eff.symsPerSlot.toNat = (if s.cfg.cp = 0 then 14 else 12) ∧ t.eff.nUseful.toNat = n
        ∧ t.eff.nFft.toNat = fft ∧ t.eff.nSubcarriers.toNat = 12 * nrb ∧ t.eff.totalSlots.toNat = 10 * 2 ^ mu
        ∧ t.eff.totalSymbols.toNat = (if s.cfg.cp = 0 then 14 else 12) * (10 * 2 ^ mu))
      ∧ (t.eff.cpShort.toNat = (if s.cfg.cp = 0 then roundHalfEven (144 * n) 2048 else 0)
        ∧ t.eff.cpLong.toNat = (if s.cfg.cp = 0 then roundHalfEven (160 * n) 2048 else 0)
        ∧ t.eff.slotSamples.toNat = (if s.cfg.cp = 0 then 15 * n else 0)
        ∧ t.eff.totalSamples.toNat = (if s.cfg.cp = 0 then 10 * 2 ^ mu * (15 * n) else 0))
      ∧ (t.eff.cpLen.length = 14 ∧ (s.cfg.cp ≠ 0 → ∀ i, t.eff.cpLenAt i = 0)
        ∧ (s.cfg.cp = 0 → ∀ i, (t.eff.cpLenAt i : Int) = (reconcile mu n (15 * n)).getD i 0))
      ∧ (∀ k l, t.gridAt k l = RE.blank) ∧ ∀ m, t.outAt m = Sample.zero

/-- If a check fails, CFG_APPLY answers a next state with CFG_VALID 0 and the error of the first failing check raised,
under its code 0x01 to 0x08 as listed (kept out of ERR_CODE while an earlier one stands); no element of GRID or OUT
exists, and every effective register and every other field is unchanged. That a memory that does not exist is the
empty list is the model's choice (log 14). (40_config.md R153; 60_exceptions.md R300; 60_exceptions.md R301) -/
def Obligations.CfgApplyFails : Prop :=
  ∀ (s : State) (e : CmdError), s.cfg.firstError Config.limits = some e →
    ∃ n, (e, n) ∈ [(CmdError.cfgCpInvalid, 0x01#8), (.cfgCellRange, 0x02#8), (.cfgMuRange, 0x03#8),
        (.cfgCpMismatch, 0x04#8), (.cfgFsNotInteger, 0x05#8), (.cfgNfftSmall, 0x06#8), (.cfgNfftLimit, 0x07#8),
        (.cfgNrbRange, 0x08#8)]
      ∧ ∃ t, exec .cfgApply s = .next t
        ∧ t = { s with cfgValid := false, err := true, errCode := if s.err then s.errCode else n
                       grid := [], out := [] }
        ∧ (∀ k l, t.gridExists k l = false) ∧ ∀ m, t.outExists m = false

/-- Under every limits, the nine checks apply in the order of the table: CP code, cell id, numerology, CP type against
numerology, RB count, sample rate, override too small, IDFT size not a power of two or too large, subcarriers beyond
N_useful; the first that fails names the error, and none failing is success. (40_config.md R141; 40_config.md R144;
40_config.md R145; 40_config.md R146; 40_config.md R149) -/
def Obligations.CfgCheckOrder : Prop :=
  ∀ (lim : Limits) (c : StagedConfig) (mu n fft : Nat), mu = c.mu.toNat → n = c.fs.toNat / (15000 * 2 ^ mu) →
    fft = (if c.nfft = 0 then nextPow2 n else c.nfft.toNat) →
    (let e := c.firstError lim
     (2 ≤ c.cp.toNat → e = some .cfgCpInvalid) ∧ (c.cp.toNat < 2 →
     (1007 < c.cell.toNat → e = some .cfgCellRange) ∧ (c.cell.toNat ≤ 1007 →
     (4 < mu → e = some .cfgMuRange) ∧ (mu ≤ 4 →
     (c.cp = 1 ∧ mu ≠ 2 → e = some .cfgCpMismatch) ∧ ((c.cp = 1 → mu = 2) →
     (c.nrb = 0 ∨ lim.nrbMax < c.nrb.toNat → e = some .cfgNrbRange) ∧ (c.nrb ≠ 0 ∧ c.nrb.toNat ≤ lim.nrbMax →
     (c.fs = 0 ∨ c.fs.toNat % (15000 * 2 ^ mu) ≠ 0 → e = some .cfgFsNotInteger)
       ∧ (c.fs ≠ 0 ∧ c.fs.toNat % (15000 * 2 ^ mu) = 0 →
     (c.nfft ≠ 0 ∧ c.nfft.toNat < n → e = some .cfgNfftSmall) ∧ ((c.nfft ≠ 0 → n ≤ c.nfft.toNat) →
     ((c.nfft ≠ 0 ∧ ¬ ∃ k, c.nfft.toNat = 2 ^ k) ∨ lim.nfftMax < fft → e = some .cfgNfftLimit)
       ∧ ((c.nfft ≠ 0 → ∃ k, c.nfft.toNat = 2 ^ k) ∧ fft ≤ lim.nfftMax →
     (n < 12 * c.nrb.toNat → e = some .cfgNrbRange) ∧ (12 * c.nrb.toNat ≤ n → e = none))))))))))

/-- For every numerology and every number of useful samples, reconciliation gives fourteen lengths, each from 0 to
N_useful, whose symbols together have exactly 15 times N_useful samples. With d the surplus over the rounded lengths,
the symbol at place p of the adding order, written out, has its rounded length plus the number of the turns 0 to d-1
that fall on p modulo 14, and for negative d the symbol at place p of the removing order, written out, its rounded
length minus that number. (40_config.md R148; 40_config.md R150; 40_config.md R151) -/
def Obligations.CpReconciliation : Prop :=
  ∀ mu n : Nat,
    let cp := reconcile mu n (15 * n)
    let rounded : Nat → Int := fun i =>
      if i = 0 ∨ (mu = 0 ∧ i = 7) then roundHalfEven (160 * n) 2048 else roundHalfEven (144 * n) 2048
    let d : Int := 15 * n - ((List.range 14).map fun i => (n : Int) + rounded i).sum
    let add : List Nat :=
      if mu = 0 then [0, 7, 1, 2, 3, 4, 5, 6, 8, 9, 10, 11, 12, 13] else [0, 1, 2, 3, 4, 5, 6, 7, 8, 9, 10, 11, 12, 13]
    let rem : List Nat :=
      if mu = 0 then [13, 12, 11, 10, 9, 8, 6, 5, 4, 3, 2, 1, 7, 0] else [13, 12, 11, 10, 9, 8, 7, 6, 5, 4, 3, 2, 1, 0]
    (cp.length = 14 ∧ (cp.map fun c => (n : Int) + c).sum = 15 * n ∧ ∀ c ∈ cp, 0 ≤ c ∧ c ≤ n)
      ∧ ∀ p, p < 14 →
        (0 ≤ d → cp.getD (add.getD p 0) 0 = rounded (add.getD p 0) + (d + 13 - p) / 14)
          ∧ (d < 0 → cp.getD (rem.getD p 0) 0 = rounded (rem.getD p 0) - (-d + 13 - p) / 14)

/-- For every fraction a/b with b positive, the result q is within one half of it, and is even when it is exactly one
half away. (00_scope.md R11; 40_config.md R148) -/
def Obligations.RoundHalfEvenNearest : Prop :=
  ∀ a b : Nat, 0 < b →
    2 * a ≤ 2 * b * roundHalfEven a b + b ∧ 2 * b * roundHalfEven a b ≤ 2 * a + b
      ∧ ((2 * a = 2 * b * roundHalfEven a b + b ∨ 2 * b * roundHalfEven a b = 2 * a + b) →
          roundHalfEven a b % 2 = 0)

/-- nextPow2 n is a power of two, at least n, and no smaller power of two is at least n. (00_scope.md R11;
40_config.md R145) -/
def Obligations.NextPow2Least : Prop :=
  ∀ n : Nat, (∃ k, nextPow2 n = 2 ^ k) ∧ n ≤ nextPow2 n ∧ ∀ k, n ≤ 2 ^ k → nextPow2 n ≤ 2 ^ k

/-- In every state NOP answers a next state equal to the one it ran in; with completion, only DONE and the pending
slot change. (40_config.md R155) -/
def Obligations.NopChangesNothing : Prop :=
  ∀ s : State, exec .nop s = .next s
    ∧ (EngineMoves s → s.pending = some 0x00000000#32 →
        step s = .next { s.popTurn with done := true, pending := none })

/-- With a configuration, GRID_CLEAR answers a next state in which every RE reads (zero, EMPTY), while OUT, every
register and everything else are unchanged. (40_config.md R156) -/
def Obligations.GridClearEmptiesGrid : Prop :=
  ∀ s : State, s.cfgValid = true →
    ∃ t, exec .gridClear s = .next t ∧ (∀ k l, t.gridAt k l = RE.blank) ∧ t = { s with grid := t.grid }

/-- With CFG_VALID 0, GRID_CLEAR, QAM_FILL, RS_CINIT, RS_GEN and the OFDM commands set ERR, record 0x10 unless an
earlier error stands, and change nothing else. (60_exceptions.md R300; 60_exceptions.md R301; 60_exceptions.md R302)
-/
def Obligations.UnconfiguredCommandsReport : Prop :=
  ∀ (s : State) (i : Instr), s.cfgValid = false →
    (i = .gridClear ∨ (∃ tag ord, i = .qamFill tag ord) ∨ (∃ sel, i = .rsCinit sel) ∨ (∃ sel, i = .rsGen sel)
      ∨ (∃ l, i = .ofdmSym l) ∨ (∃ n, i = .ofdmSlot n) ∨ i = .ofdmFrame) →
    exec i s = .next { s with err := true, errCode := if s.err then s.errCode else 0x10#8 }

/-! ### PRBS generator -/

/-- In every two windows, on a sequence or not, a step moves bits 30 to 1 down by one and enters X1[3]+X1[0] and
X2[3]+X2[2]+X2[1]+X2[0] modulo 2 at bit 30; so if the windows hold x1(m..m+30) and x2(m..m+30) of the Gold sequences
of a seed, the stepped ones hold x1(m+1..m+31) and x2(m+1..m+31). (41_prbs.md R180; 41_prbs.md R182) -/
def Obligations.WindowStep : Prop :=
  (∀ w : Windows,
      (∀ i, i < 30 → (stepWindows w).x1.getLsbD i = w.x1.getLsbD (i + 1)
          ∧ (stepWindows w).x2.getLsbD i = w.x2.getLsbD (i + 1))
        ∧ (stepWindows w).x1.getLsbD 30 = (w.x1.getLsbD 3 ^^ w.x1.getLsbD 0)
        ∧ (stepWindows w).x2.getLsbD 30
            = (w.x2.getLsbD 3 ^^ w.x2.getLsbD 2 ^^ w.x2.getLsbD 1 ^^ w.x2.getLsbD 0))
    ∧ ∀ (c : BitVec 31) (m : Nat) (w : Windows),
      (∀ i, i < 31 → w.x1.getLsbD i = goldX1 (m + i)) → (∀ i, i < 31 → w.x2.getLsbD i = goldX2 c (m + i)) →
      (∀ i, i < 31 → (stepWindows w).x1.getLsbD i = goldX1 (m + 1 + i))
        ∧ (∀ i, i < 31 → (stepWindows w).x2.getLsbD i = goldX2 c (m + 1 + i))

/-- In every state PRBS_SEED answers a next state whose PRBS registers stand at bit 0 of the stream of ARG0[30:0],
with that seed in PRBS_CINIT, PRBS_POS and PRBS_OUT 0, the seed-independent window in PRBS_X1, and everything else
unchanged. (41_prbs.md R181; 41_prbs.md R180; 41_prbs.md R187) -/
def Obligations.PrbsSeedStartsStream : Prop :=
  ∀ s : State, ∃ t, exec .prbsSeed s = .next t ∧ t = { s with prbs := t.prbs }
    ∧ StreamAt (s.arg0.extractLsb' 0 31) 0 t.prbs ∧ t.prbs.cinit = s.arg0.extractLsb' 0 31
    ∧ t.prbs.pos = 0 ∧ t.prbs.out = 0 ∧ t.prbs.x1 = 0x5E485840#31

/-- For every state and every legal CNT, PRBS_GEN answers a next state that changes only PRBS_X1, PRBS_X2, PRBS_POS
and PRBS_OUT: bit j of PRBS_OUT is bit 0 of the one window plus bit 0 of the other modulo 2 after j steps for j below
CNT and 0 above, the windows are CNT steps on, PRBS_POS is CNT higher modulo 2^32. If the PRBS registers stand at bit
N of the stream of c, bit j of PRBS_OUT is then c(N + j) for j below CNT, and the registers stand at bit N + CNT.
(41_prbs.md R183; 41_prbs.md R185) -/
def Obligations.PrbsGenEmitsStream : Prop :=
  ∀ (s : State) (cnt : BitVec 6), 1 ≤ cnt.toNat → cnt.toNat ≤ 32 →
    let w : Nat → Windows := fun j => stepWindows^[j] ⟨s.prbs.x1, s.prbs.x2⟩
    ∃ t, exec (.prbsGen cnt) s = .next t
      ∧ t = { s with prbs := { s.prbs with x1 := (w cnt.toNat).x1, x2 := (w cnt.toNat).x2
                                           pos := s.prbs.pos + cnt.setWidth 32, out := t.prbs.out } }
      ∧ (∀ j, j < cnt.toNat → t.prbs.out.getLsbD j = ((w j).x1.getLsbD 0 ^^ (w j).x2.getLsbD 0))
      ∧ (∀ j, cnt.toNat ≤ j → t.prbs.out.getLsbD j = false)
      ∧ ∀ (c : BitVec 31) (n : Nat), StreamAt c n s.prbs →
          StreamAt c (n + cnt.toNat) t.prbs ∧ ∀ j, j < cnt.toNat → t.prbs.out.getLsbD j = goldBit c (n + j)

/-- With both windows 0, as after reset, PRBS_GEN of any count answers a next state with PRBS_OUT 0 and the windows 0;
PRBS_POS goes on by CNT and everything else is unchanged. (41_prbs.md R183; 10_state.md R58) -/
def Obligations.PrbsGenBeforeSeed : Prop :=
  ∀ (s : State) (cnt : BitVec 6), s.prbs.x1 = 0 → s.prbs.x2 = 0 →
    exec (.prbsGen cnt) s
      = .next { s with prbs := { s.prbs with out := 0, pos := s.prbs.pos + cnt.setWidth 32 } }

/-- For every state, PRBS_SKIP answers a next state that changes only PRBS_X1, PRBS_X2 and PRBS_POS: the windows are
ARG0 steps on and PRBS_POS is ARG0 higher modulo 2^32. With both windows 0, as after reset, they stay 0; with ARG0 = 0
nothing changes; if the PRBS registers stand at bit N of the stream of c, they then stand at bit N + ARG0. (41_prbs.md
R184; 41_prbs.md R185) -/
def Obligations.PrbsSkipAdvancesStream : Prop :=
  ∀ s : State,
    let w : Windows := stepWindows^[s.arg0.toNat] ⟨s.prbs.x1, s.prbs.x2⟩
    ∃ t, exec .prbsSkip s = .next t
      ∧ t = { s with prbs := { s.prbs with x1 := w.x1, x2 := w.x2, pos := s.prbs.pos + s.arg0 } }
      ∧ (s.prbs.x1 = 0 ∧ s.prbs.x2 = 0 → t = { s with prbs := { s.prbs with pos := s.prbs.pos + s.arg0 } })
      ∧ (s.arg0 = 0 → t = s)
      ∧ ∀ (c : BitVec 31) (n : Nat), StreamAt c n s.prbs → StreamAt c (n + s.arg0.toNat) t.prbs

/-! ### Constellation mapper -/

/-- In every state and for every order, QAM_MAP answers a next state whose MAP_I and MAP_Q, read as signed numbers,
and MAP_NORM are those of the formulas applied to ARG0's bits, and changes nothing else. (42_qam.md R200; 42_qam.md
R202; 10_state.md R46) -/
def Obligations.QamMapResult : Prop :=
  ∀ (s : State) (ord : Order), ∃ t, exec (.qamMap ord) s = .next t ∧ t = { s with map := t.map }
    ∧ (let b := fun i => if s.arg0.getLsbD i then (-1 : Int) else 1
       (t.map.i.toInt, t.map.q.toInt, t.map.norm.toNat) =
         match ord with
         | .bpsk => (b 0, b 0, 2)
         | .qpsk => (b 0, b 1, 2)
         | .qam16 => (b 0 * (2 - b 2), b 1 * (2 - b 3), 10)
         | .qam64 => (b 0 * (4 - b 2 * (2 - b 4)), b 1 * (4 - b 3 * (2 - b 5)), 42)
         | .qam256 => (b 0 * (8 - b 2 * (4 - b 4 * (2 - b 6))), b 1 * (8 - b 3 * (4 - b 5 * (2 - b 7))), 170))

/-- For every order and every bits, both coordinates of the mapped point are odd and between -15 and 15, and only the
first Qm bits count. (42_qam.md R202; 10_state.md R46) -/
def Obligations.QamPointsOddAndBounded : Prop :=
  ∀ (ord : Order) (b b' : Nat → Bool),
    ((mapPoint ord b).a % 2 = 1 ∧ (mapPoint ord b).b % 2 = 1)
      ∧ (-15 ≤ (mapPoint ord b).a ∧ (mapPoint ord b).a ≤ 15 ∧ -15 ≤ (mapPoint ord b).b ∧ (mapPoint ord b).b ≤ 15)
      ∧ ((∀ i, i < bitsPerSymbol ord → b i = b' i) → mapPoint ord b = mapPoint ord b')

/-- With a configuration and a rectangle inside the grid, QAM_FILL answers a next state in which each RE of the
rectangle holds the quantised point of a fresh draw and the command's tag, every RE outside the rectangle is as
before, and nothing else of the block changes. The numbering of the draws is the model's (log 5, log 15). (42_qam.md
R205; 42_qam.md R206) -/
def Obligations.QamFillWritesRectangle : Prop :=
  ∀ (s : State) (tag : Tag) (ord : Order), s.cfgValid = true → s.argRb0 + s.argNrbf ≤ s.eff.nrb.toNat →
    s.argL0 + s.argNl ≤ s.eff.totalSymbols.toNat →
    ∃ t, exec (.qamFill tag ord) s = .next t
      ∧ t = { s with grid := t.grid
                     env := { s.env with draws := s.env.draws + s.argNl * (12 * s.argNrbf) } }
      ∧ (∀ i j, i < 12 * s.argNrbf → j < s.argNl →
          t.gridAt (12 * s.argRb0 + i) (s.argL0 + j)
            = ⟨Config.quantise (mapPoint ord fun q =>
                (Config.drawBits (s.env.draws + j * (12 * s.argNrbf) + i)).getLsbD q), tag⟩)
      ∧ ∀ k l, k < gridStride →
          ¬ (12 * s.argRb0 ≤ k ∧ k < 12 * (s.argRb0 + s.argNrbf) ∧ s.argL0 ≤ l ∧ l < s.argL0 + s.argNl) →
          t.gridAt k l = s.gridAt k l

/-- With a configuration and a target that leaves the grid (a rectangle for QAM_FILL; a footprint, slot or symbol for
RS_GEN), the command sets ERR, records 0x11 unless an earlier error stands, and changes nothing else, RS_CINIT
included. (42_qam.md R205; 43_refsig.md R239; 60_exceptions.md R301) -/
def Obligations.TargetsOutsideGridReport : Prop :=
  ∀ s : State, s.cfgValid = true →
    ((s.eff.nrb.toNat < s.argRb0 + s.argNrbf ∨ s.eff.totalSymbols.toNat < s.argL0 + s.argNl) →
      ∀ tag ord, exec (.qamFill tag ord) s
        = .next { s with err := true, errCode := if s.err then s.errCode else 0x11#8 })
    ∧ ((s.eff.nrb.toNat < s.argRb0 + s.argNrbf ∨ s.eff.totalSlots.toNat ≤ s.argSlot
        ∨ s.eff.symsPerSlot.toNat ≤ s.argSymb) →
      ∀ sel, exec (.rsGen sel) s
        = .next { s with err := true, errCode := if s.err then s.errCode else 0x11#8 })

/-! ### Reference-signal generator -/

/-- With a configuration, RS_CINIT answers a next state whose RS_CINIT is the PDSCH formula, the PBCH formula or
ARG2[30:0] by SEL, computed exactly on the fields of ARG1 and the effective cell id with no range check and reduced
modulo 2^31, and changes nothing else. (43_refsig.md R230; 43_refsig.md R231; 43_refsig.md R232; 43_refsig.md R233;
43_refsig.md R238) -/
def Obligations.RsCinitSeeds : Prop :=
  ∀ (s : State) (sel : Sel), s.cfgValid = true →
    ∃ t, exec (.rsCinit sel) s = .next t ∧ t = { s with rs := { s.rs with cinit := t.rs.cinit } }
      ∧ (let cell := s.eff.cell.toNat
         let slot := (s.arg1.extractLsb' 0 8).toNat
         let symb := (s.arg1.extractLsb' 8 4).toNat
         let ssb := (s.arg1.extractLsb' 12 6).toNat
         let hf := (s.arg1.extractLsb' 18 1).toNat
         let issb := if ssb ≤ 3 then ssb + 4 * hf else ssb + 8 * hf
         t.rs.cinit.toNat =
           match sel with
           | .pdsch => (2 ^ 17 * (14 * slot + symb + 1) * (2 * cell + 1) + 2 * cell) % 2 ^ 31
           | .pbch => (2 ^ 11 * (issb + 1) * (cell / 4 + 1) + 2 ^ 6 * (issb + 1) + cell % 4) % 2 ^ 31
           | .raw => s.arg2.toNat % 2 ^ 31)

/-- With a configuration and a target inside the grid, RS_GEN answers a next state with the selected seed c in
RS_CINIT; at every masked position p of every block r of the footprint the RE is the quantised QPSK point of c(2m),
c(2m+1) with m = RS_MOFF + w r + rank(p) and the tag DMRS; every other RE is as before and nothing else changes.
(43_refsig.md R235; 43_refsig.md R236; 43_refsig.md R239; 43_refsig.md R240; 41_prbs.md R180) -/
def Obligations.RsGenWritesMaskedPositions : Prop :=
  ∀ (s : State) (sel : Sel), s.cfgValid = true → s.argRb0 + s.argNrbf ≤ s.eff.nrb.toNat →
    s.argSlot < s.eff.totalSlots.toNat → s.argSymb < s.eff.symsPerSlot.toNat →
    ∃ t, exec (.rsGen sel) s = .next t
      ∧ t = { s with rs := { s.rs with cinit := s.rsSeed sel }, grid := t.grid }
      ∧ (let c := s.rsSeed sel
         let l := s.argSlot * s.eff.symsPerSlot.toNat + s.argSymb
         let rank := fun p => (List.range p).countP fun q => s.rs.mask.getLsbD q
         (∀ r p, r < s.argNrbf → p < 12 → s.rs.mask.getLsbD p = true →
           (let m := s.rs.moff.toNat + rank 12 * r + rank p
            t.gridAt (12 * (s.argRb0 + r) + p) l
              = ⟨Config.quantise ⟨if goldBit c (2 * m) then -1 else 1, if goldBit c (2 * m + 1) then -1 else 1, 2⟩,
                 .dmrs⟩))
         ∧ ∀ k l', k < gridStride →
             ¬ (l' = l ∧ 12 * s.argRb0 ≤ k ∧ k < 12 * (s.argRb0 + s.argNrbf) ∧ s.rs.mask.getLsbD (k % 12) = true) →
             t.gridAt k l' = s.gridAt k l')

/-! ### OFDM modulator -/

/-- With a configuration, normal CP and a column inside the frame, OFDM_SYMBOL answers a next state in which the span
of the symbol in OUT holds the last cp useful samples and then all of them, the useful samples being the central ones
of the implementation's transform of the centred, shifted column; every other sample is as before and nothing else
changes. (44_ofdm.md R260; 44_ofdm.md R263; 44_ofdm.md R264; 44_ofdm.md R265; 44_ofdm.md R266) -/
def Obligations.OfdmSymbolWritesSpan : Prop :=
  ∀ (s : State) (sym : BitVec 12), s.cfgValid = true → s.eff.cp = 0 → sym.toNat < s.eff.totalSymbols.toNat →
    ∃ t, exec (.ofdmSym sym) s = .next t ∧ t = { s with out := t.out }
      ∧ (let l := sym.toNat
         let n := s.eff.nFft.toNat
         let len := s.eff.nSubcarriers.toNat
         let nu := s.eff.nUseful.toNat
         let start := (n - len) / 2
         let y : Fin n → ℂ := fun k =>
           let bin := (k.val + n / 2) % n
           if start ≤ bin ∧ bin < start + len then Config.toC (s.gridAt (bin - start) l).val else 0
         let u := fun i => sampleAt (Config.transform n y) ((n - nu) / 2 + i)
         let sps := s.eff.symsPerSlot.toNat
         let cp := s.eff.cpLenAt (l % sps)
         let off := (l / sps) * s.eff.slotSamples.toNat
           + ((List.range (l % sps)).map fun q => nu + s.eff.cpLenAt q).sum
         (∀ j, j < cp → t.outAt (off + j) = u (nu - cp + j)) ∧ (∀ j, j < nu → t.outAt (off + cp + j) = u j)
           ∧ ∀ m, ¬ (off ≤ m ∧ m < off + (nu + cp)) → t.outAt m = s.outAt m)

/-- With a configuration latched by CFG_APPLY, normal CP and a column inside the frame, after OFDM_SYMBOL each of the
first cp samples of the symbol's span equals the sample N_USEFUL further on, whatever the transform is. (44_ofdm.md
R265; 44_ofdm.md R266) -/
def Obligations.CyclicPrefixCopiesTail : Prop :=
  ∀ (s t : State) (sym : BitVec 12), s.cfgValid = true → EffectiveLatched s → s.eff.cp = 0 →
    sym.toNat < s.eff.totalSymbols.toNat → exec (.ofdmSym sym) s = .next t →
    ∀ j, j < s.eff.cpLenAt (sym.toNat % 14) →
      t.outAt (s.eff.symbolOffset sym.toNat + j)
        = t.outAt (s.eff.symbolOffset sym.toNat + s.eff.nUseful.toNat + j)

/-- For every accepted configuration with normal CP: symbol 0 starts at 0, each symbol starts where the one before
ends, and the last one ends at TOTAL_SAMPLES. (44_ofdm.md R265; 40_config.md R151) -/
def Obligations.SymbolSpansTileFrame : Prop :=
  ∀ c : StagedConfig, c.Accepted → c.cp = 0 →
    (let e := c.derive
     e.symbolOffset 0 = 0
       ∧ (∀ l, e.symbolOffset (l + 1) = e.symbolOffset l + e.symbolSamples (l % 14))
       ∧ e.symbolOffset e.totalSymbols.toNat = e.totalSamples.toNat)

/-- With a configuration latched by CFG_APPLY, normal CP and a slot inside the frame, OFDM_SLOT answers a next state
in which every sample of every symbol of the slot is that symbol's, every sample outside the slot's SLOT_SAMPLES
samples is as before, and nothing else changes. (44_ofdm.md R267; 44_ofdm.md R265) -/
def Obligations.OfdmSlotWritesSlot : Prop :=
  ∀ (s : State) (slot : BitVec 8), s.cfgValid = true → EffectiveLatched s → s.eff.cp = 0 →
    slot.toNat < s.eff.totalSlots.toNat →
    ∃ t, exec (.ofdmSlot slot) s = .next t ∧ t = { s with out := t.out }
      ∧ (∀ i j, i < 14 → j < s.eff.symbolSamples i →
          t.outAt (s.eff.symbolOffset (14 * slot.toNat + i) + j)
            = symbolSample Config.transform s.eff s.grid (14 * slot.toNat + i) j)
      ∧ ∀ m, ¬ (slot.toNat * s.eff.slotSamples.toNat ≤ m ∧ m < (slot.toNat + 1) * s.eff.slotSamples.toNat) →
          t.outAt m = s.outAt m

/-- With a configuration latched by CFG_APPLY and normal CP, OFDM_FRAME answers a next state in which every sample of
every symbol of the frame is that symbol's; every sample of OUT belongs to a symbol; samples beyond TOTAL_SAMPLES and
everything else are unchanged. (44_ofdm.md R268; 44_ofdm.md R265) -/
def Obligations.OfdmFrameWritesFrame : Prop :=
  ∀ s : State, s.cfgValid = true → EffectiveLatched s → s.eff.cp = 0 →
    ∃ t, exec .ofdmFrame s = .next t ∧ t = { s with out := t.out }
      ∧ (∀ l j, l < s.eff.totalSymbols.toNat → j < s.eff.symbolSamples (l % 14) →
          t.outAt (s.eff.symbolOffset l + j) = symbolSample Config.transform s.eff s.grid l j)
      ∧ (∀ m, m < s.eff.totalSamples.toNat →
          ∃ l j, l < s.eff.totalSymbols.toNat ∧ j < s.eff.symbolSamples (l % 14) ∧ m = s.eff.symbolOffset l + j)
      ∧ ∀ m, s.eff.totalSamples.toNat ≤ m → t.outAt m = s.outAt m

/-- With a configuration, extended CP gives 0x14 for each OFDM command whatever its operand; with normal CP a symbol
or slot outside the frame gives 0x11. Only ERR and ERR_CODE change. (44_ofdm.md R261; 44_ofdm.md R266; 44_ofdm.md
R267; 60_exceptions.md R302) -/
def Obligations.OfdmErrorPriority : Prop :=
  ∀ s : State, s.cfgValid = true →
    (s.eff.cp ≠ 0 → ∀ i, ((∃ l, i = Instr.ofdmSym l) ∨ (∃ n, i = Instr.ofdmSlot n) ∨ i = .ofdmFrame) →
      exec i s = .next { s with err := true, errCode := if s.err then s.errCode else 0x14#8 })
    ∧ (s.eff.cp = 0 →
      (∀ l : BitVec 12, s.eff.totalSymbols.toNat ≤ l.toNat →
        exec (.ofdmSym l) s = .next { s with err := true, errCode := if s.err then s.errCode else 0x11#8 })
      ∧ ∀ n : BitVec 8, s.eff.totalSlots.toNat ≤ n.toNat →
        exec (.ofdmSlot n) s = .next { s with err := true, errCode := if s.err then s.errCode else 0x11#8 })

/-- For every accepted configuration with normal CP, every quantiser and every column whose only non-zero value is at
subcarrier N_SUBCARRIERS/2: modulating it with the ideal transform writes the quantised value divided by N_FFT at
every sample of the symbol's span. (44_ofdm.md R262; 44_ofdm.md R263; 44_ofdm.md R266) -/
def Obligations.IdealTransformOfDc : Prop :=
  ∀ (c : StagedConfig) (q : ℂ → Sample) (g : Memory RE) (o : Memory Sample) (l : Nat) (v : Sample),
    c.Accepted → c.cp = 0 → l < c.derive.totalSymbols.toNat →
    (∀ i, i < c.derive.nSubcarriers.toNat →
      (Memory.read RE.blank g (gridKey i l)).val
        = if i = c.derive.nSubcarriers.toNat / 2 then v else Sample.zero) →
    ∀ j, j < c.derive.symbolSamples (l % 14) →
      Memory.read Sample.zero (modulateSymbol (idealTransform q) c.derive g l o) (c.derive.symbolOffset l + j)
        = q (Config.toC v / (c.derive.nFft.toNat : ℂ))

/-- Two states that differ in GRID only, and whose elements have the same values at every position, give the same OUT
under each OFDM command, whatever the tags. (44_ofdm.md R260) -/
def Obligations.TagsDoNotAffectWaveform : Prop :=
  ∀ (s : State) (g : Memory RE) (i : Instr) (t t' : State),
    (∀ k l, (Memory.read RE.blank g (gridKey k l)).val = (s.gridAt k l).val) →
    ((∃ l, i = Instr.ofdmSym l) ∨ (∃ n, i = Instr.ofdmSlot n) ∨ i = .ofdmFrame) →
    exec i s = .next t → exec i { s with grid := g } = .next t' → t'.out = t.out

/-! ### Invariants -/

/-- The reset state satisfies the machine's invariant: canonical memories, a consistent report, latched effective
registers, and no element listed that does not exist. That the memories are canonical lists of what differs from a
blank element is the model's choice (log 14). (10_state.md R58; 70_reset_and_hazards.md R340) -/
def Obligations.ResetIsSound : Prop :=
  Sound State.reset

/-- If GRID and OUT are in canonical form (indices strictly rising, nothing listed that equals an unlisted element),
they are after every step. The canonical list form itself is the model's choice (log 14); the rules give the elements
only. (10_state.md R51; 10_state.md R53; 20_memory.md R86) -/
def Obligations.CanonicalMemoriesKept : Prop :=
  ∀ s t : State, MemoriesCanonical s → step s = .next t → MemoriesCanonical t

/-- If the memories are canonical, the report is consistent, the effective registers are those of a successful
CFG_APPLY or the reset values, and no listed element lies outside GRID or OUT, then so it is after every step. The
canonical list form and what is listed are the model's choice (log 14). (10_state.md R35; 10_state.md R43; 10_state.md
R51; 10_state.md R53; 40_config.md R152; 40_config.md R153) -/
def Obligations.SoundKept : Prop :=
  ∀ s t : State, Sound s → step s = .next t → Sound t
end

