-- ==== Sys2Proof/Laws/Config.lean ====
section
/-! SUPPORT. CFG_APPLY: the checks as one chain, the parameters' bounds, and what a round robin keeps. -/

namespace Sys2Proof.Machine

theorem firstFailing_cons (b : Bool) (e : CmdError) (l : List (Bool × CmdError)) :
    (((b, e) :: l).find? (·.1)).map (·.2) = if b = true then some e else (l.find? (·.1)).map (·.2) := by
  cases b <;> rfl

/-- The checks of CFG_APPLY as a chain (40_config.md R141). -/
theorem firstError_eq (lim : Limits) (c : StagedConfig) : c.firstError lim =
    if c.cp = 2 ∨ c.cp = 3 then some .cfgCpInvalid
    else if 1007 < c.cell.toNat then some .cfgCellRange
    else if 4 < c.mu.toNat then some .cfgMuRange
    else if c.cp = 1 ∧ c.mu ≠ 2 then some .cfgCpMismatch
    else if c.nrb = 0 ∨ lim.nrbMax < c.nrb.toNat then some .cfgNrbRange
    else if c.fs = 0 ∨ c.fs.toNat % c.deltaF ≠ 0 then some .cfgFsNotInteger
    else if c.nfft ≠ 0 ∧ c.nfft.toNat < c.nUsefulOf then some .cfgNfftSmall
    else if (c.nfft ≠ 0 ∧ isPow2 c.nfft.toNat = false) ∨ lim.nfftMax < c.nFftOf then some .cfgNfftLimit
    else if c.nUsefulOf < 12 * c.nrb.toNat then some .cfgNrbRange
    else none := by
  unfold StagedConfig.firstError StagedConfig.checks
  simp only [firstFailing_cons, decide_eq_true_eq]
  rfl

theorem isPow2_iff (n : Nat) : isPow2 n = true ↔ ∃ k, n = 2 ^ k := by
  unfold isPow2
  simp only [Bool.and_eq_true, bne_iff_ne, beq_iff_eq]
  constructor
  · rintro ⟨-, h⟩
    exact ⟨_, h.symm⟩
  · rintro ⟨k, rfl⟩
    exact ⟨by positivity, by rw [Nat.log2_two_pow]⟩

/-- P_NRB_MAX lies in 1..511 (00_scope.md R9). -/
theorem nrbMax_bounds : 1 ≤ Config.nrbMax ∧ Config.nrbMax ≤ 511 := by
  unfold Config.nrbMax
  omega

/-- P_NFFT_MAX lies in 16..32768 (00_scope.md R9). -/
theorem nfftMax_bounds : 16 ≤ Config.nfftMax ∧ Config.nfftMax ≤ 32768 := by
  unfold Config.nfftMax
  have h : (8 + Config.nfftMaxPick.val) % 12 < 12 := Nat.mod_lt _ (by decide)
  generalize (8 + Config.nfftMaxPick.val) % 12 = k at h
  interval_cases k <;> decide

theorem roundRobin_succ (order : List Nat) (δ : Int) (n : Nat) (cp : List Int) :
    roundRobin order δ (n + 1) cp = (roundRobin order δ n cp).modify (order.getD (n % 14) 0) (· + δ) := by
  unfold roundRobin
  rw [List.range_succ, List.foldl_append]
  rfl

/-- A round robin keeps the number of lengths. -/
theorem roundRobin_length (order : List Nat) (δ : Int) (n : Nat) (cp : List Int) :
    (roundRobin order δ n cp).length = cp.length := by
  induction n with
  | zero => rfl
  | succ n ih => rw [roundRobin_succ, List.length_modify, ih]

theorem sum_modify (l : List Int) (i : Nat) (δ : Int) (h : i < l.length) :
    (l.modify i (· + δ)).sum = l.sum + δ := by
  induction l generalizing i with
  | nil => simp at h
  | cons a l ih =>
    cases i with
    | zero => simp; ring
    | succ i =>
      simp at h
      simp [ih i h]
      ring

/-- Each turn of a round robin over the fourteen symbols moves the total by `δ`. -/
theorem roundRobin_sum (order : List Nat) (δ : Int) (n : Nat) (cp : List Int) (hc : cp.length = 14)
    (ho : ∀ t < 14, order.getD t 0 < 14) : (roundRobin order δ n cp).sum = cp.sum + n * δ := by
  induction n with
  | zero => simp [roundRobin]
  | succ n ih =>
    rw [roundRobin_succ, sum_modify _ _ _ (by rw [roundRobin_length, hc]; exact ho _ (Nat.mod_lt _ (by omega))), ih]
    push_cast
    ring

/-- A round robin gives each symbol `δ` for every turn whose place in the order names it. -/
theorem roundRobin_getD (order : List Nat) (δ : Int) (n : Nat) (cp : List Int) (i : Nat) (hi : i < cp.length) :
    (roundRobin order δ n cp).getD i 0
      = cp.getD i 0 + δ * ((List.range n).countP fun t => order.getD (t % 14) 0 == i) := by
  induction n with
  | zero => simp [roundRobin]
  | succ n ih =>
    have hl : i < (roundRobin order δ n cp).length := by rw [roundRobin_length]; exact hi
    rw [roundRobin_succ, List.range_succ, List.countP_append]
    simp only [List.getD_eq_getElem?_getD] at ih ⊢
    rw [List.getElem?_modify, List.getElem?_eq_getElem hl] at *
    simp only [Option.getD_some] at ih ⊢
    rw [ih]
    by_cases h : order[n % 14]?.getD 0 = i <;> simp [h]
    ring

/-- ADD and REM name symbols of the slot (40_config.md R151). -/
theorem orders_in_slot (mu : Nat) :
    (∀ t < 14, (addOrder mu).getD t 0 < 14) ∧ ∀ t < 14, (removeOrder mu).getD t 0 < 14 := by
  unfold addOrder removeOrder shortSymbols longSymbols
  split <;> decide

theorem cpRounded_length (mu nUseful : Nat) : (cpRounded mu nUseful).length = 14 := by simp [cpRounded]

end Sys2Proof.Machine
end

