-- ==== Sys2Proof/Laws/Memory.lean ====
section
/-! SUPPORT. The laws of element memories: what a write does to every read, and that the canonical form is
kept. -/

namespace Sys2Proof.Machine

variable {α : Type} {d : α}

@[simp] theorem Memory.read_nil (a : Nat) : Memory.read d [] a = d := rfl

theorem Memory.read_cons (e : Nat × α) (m : Memory α) (a : Nat) :
    Memory.read d (e :: m) a = if e.1 = a then e.2 else Memory.read d m a := rfl

theorem Memory.read_of_not_listed {m : Memory α} {a : Nat} (h : ∀ e ∈ m, e.1 ≠ a) : Memory.read d m a = d := by
  induction m with
  | nil => rfl
  | cons e m ih =>
    rw [Memory.read_cons, if_neg (h e (by simp))]
    exact ih fun e' he' => h e' (by simp [he'])

theorem Memory.read_append_left {m m' : Memory α} {a : Nat} (h : ∀ e ∈ m', e.1 ≠ a) :
    Memory.read d (m ++ m') a = Memory.read d m a := by
  induction m with
  | nil => simpa using Memory.read_of_not_listed h
  | cons e m ih => rw [List.cons_append, Memory.read_cons, Memory.read_cons, ih]

theorem Memory.read_append_right {m m' : Memory α} {a : Nat} (h : ∀ e ∈ m, e.1 ≠ a) :
    Memory.read d (m ++ m') a = Memory.read d m' a := by
  induction m with
  | nil => rfl
  | cons e m ih =>
    rw [List.cons_append, Memory.read_cons, if_neg (h e (by simp))]
    exact ih fun e' he' => h e' (by simp [he'])

theorem Memory.read_filter {m : Memory α} {p : Nat → Bool} {a : Nat} (h : p a = true) :
    Memory.read d (m.filter fun e => p e.1) a = Memory.read d m a := by
  induction m with
  | nil => rfl
  | cons e m ih =>
    rw [List.filter_cons]
    split
    · rw [Memory.read_cons, Memory.read_cons, ih]
    · rw [ih, Memory.read_cons, if_neg]
      rintro rfl
      simp_all

variable [DecidableEq α]

/-- The entries `writeRange` lists between the two kept parts. -/
theorem Memory.mem_fresh {start len : Nat} {f : Nat → α} {e : Nat × α} :
    e ∈ (List.range len).filterMap (fun i => if f i = d then none else some (start + i, f i))
      ↔ ∃ i, i < len ∧ f i ≠ d ∧ e = (start + i, f i) := by
  simp only [List.mem_filterMap, List.mem_range]
  constructor
  · rintro ⟨i, hi, h⟩
    split at h
    · cases h
    · rename_i hf
      exact ⟨i, hi, hf, (Option.some.inj h).symm⟩
  · rintro ⟨i, hi, hf, rfl⟩
    exact ⟨i, hi, by simp [hf]⟩

theorem Memory.read_fresh {start i : Nat} {f : Nat → α} (is : List Nat) (h : i ∈ is) :
    Memory.read d (is.filterMap fun i => if f i = d then none else some (start + i, f i)) (start + i) = f i := by
  induction is with
  | nil => cases h
  | cons j is ih =>
    rw [List.filterMap_cons]
    by_cases hji : j = i
    · subst hji
      by_cases hd : f j = d
      · rw [if_pos hd]
        by_cases hmem : j ∈ is
        · exact ih hmem
        · rw [hd]
          refine Memory.read_of_not_listed fun e he => ?_
          obtain ⟨k, hk, hke⟩ := List.mem_filterMap.1 he
          split at hke
          · cases hke
          · cases hke
            intro hc
            have : k = j := by simpa using hc
            exact hmem (this ▸ hk)
      · rw [if_neg hd]
        simp [Memory.read_cons]
    · have hi : i ∈ is := by
        rcases List.mem_cons.1 h with h | h
        · exact absurd h.symm hji
        · exact h
      by_cases hd : f j = d
      · rw [if_pos hd]; exact ih hi
      · rw [if_neg hd]
        show Memory.read d ((start + j, f j) :: _) _ = _
        rw [Memory.read_cons, if_neg (by omega)]
        exact ih hi

/-- A read after a range write: the written value inside the range, what was there before outside it. -/
theorem Memory.read_writeRange (m : Memory α) (start len : Nat) (f : Nat → α) (a : Nat) :
    Memory.read d (Memory.writeRange d m start len f) a
      = if start ≤ a ∧ a < start + len then f (a - start) else Memory.read d m a := by
  unfold Memory.writeRange
  by_cases hlo : a < start
  · rw [if_neg (by omega), List.append_assoc, Memory.read_append_left]
    · exact Memory.read_filter (p := fun k => decide (k < start)) (by simpa using hlo)
    · intro e he
      rcases List.mem_append.1 he with he | he
      · obtain ⟨i, -, -, rfl⟩ := Memory.mem_fresh.1 he
        dsimp only; omega
      · have := List.mem_filter.1 he
        simp at this; omega
  · by_cases hhi : a < start + len
    · rw [if_pos ⟨by omega, hhi⟩, Memory.read_append_left, Memory.read_append_right]
      · obtain ⟨i, rfl⟩ : ∃ i, a = start + i := ⟨a - start, by omega⟩
        rw [Memory.read_fresh _ (by simpa using by omega), Nat.add_sub_cancel_left]
      · intro e he
        have := List.mem_filter.1 he
        simp at this; omega
      · intro e he
        have := List.mem_filter.1 he
        simp at this; omega
    · rw [if_neg (by omega), Memory.read_append_right]
      · exact Memory.read_filter (p := fun k => decide (start + len ≤ k)) (by simpa using hhi)
      · intro e he
        rcases List.mem_append.1 he with he | he
        · have := List.mem_filter.1 he
          simp at this; omega
        · obtain ⟨i, hi, -, rfl⟩ := Memory.mem_fresh.1 he
          dsimp only; omega

/-- A read after a write of one element. -/
theorem Memory.read_write (m : Memory α) (a : Nat) (v : α) (b : Nat) :
    Memory.read d (Memory.write d m a v) b = if b = a then v else Memory.read d m b := by
  rw [Memory.write, Memory.read_writeRange]
  by_cases h : b = a
  · rw [if_pos (by omega), if_pos h]
  · rw [if_neg (by omega), if_neg h]

/-- Where the entries of a range write come from. -/
theorem Memory.mem_writeRange {m : Memory α} {start len : Nat} {f : Nat → α} {e : Nat × α}
    (h : e ∈ Memory.writeRange d m start len f) : e ∈ m ∨ (start ≤ e.1 ∧ e.1 < start + len) := by
  unfold Memory.writeRange at h
  rcases List.mem_append.1 h with h | h
  · rcases List.mem_append.1 h with h | h
    · exact .inl (List.mem_filter.1 h).1
    · obtain ⟨i, hi, -, rfl⟩ := Memory.mem_fresh.1 h
      exact .inr ⟨by dsimp only; omega, by dsimp only; omega⟩
  · exact .inl (List.mem_filter.1 h).1

theorem Memory.fresh_rising (start : Nat) (f : Nat → α) (is : List Nat) (h : is.Pairwise (· < ·)) :
    (is.filterMap fun i => if f i = d then none else some (start + i, f i)).Pairwise
      (fun e e' => e.1 < e'.1) := by
  rw [List.pairwise_filterMap]
  refine h.imp fun {i j} hij e he e' he' => ?_
  split at he
  · cases he
  · split at he'
    · cases he'
    · cases he; cases he'
      dsimp only; omega

/-- Every range write keeps the canonical form. -/
theorem Memory.wf_writeRange {m : Memory α} (h : Memory.wf d m) (start len : Nat) (f : Nat → α) :
    Memory.wf d (Memory.writeRange d m start len f) := by
  obtain ⟨hs, hd⟩ := h
  refine ⟨?_, ?_⟩
  · unfold Memory.writeRange
    refine List.pairwise_append.2 ⟨List.pairwise_append.2 ⟨hs.filter _, ?_, ?_⟩, hs.filter _, ?_⟩
    · exact Memory.fresh_rising start f _ List.pairwise_lt_range
    · intro e he e' he'
      obtain ⟨i, -, -, rfl⟩ := Memory.mem_fresh.1 he'
      have := (List.mem_filter.1 he).2
      simp at this; dsimp only; omega
    · intro e he e' he'
      have hr := (List.mem_filter.1 he').2
      simp at hr
      rcases List.mem_append.1 he with he | he
      · have := (List.mem_filter.1 he).2
        simp at this; omega
      · obtain ⟨i, hi, -, rfl⟩ := Memory.mem_fresh.1 he
        dsimp only; omega
  · intro e he
    unfold Memory.writeRange at he
    rcases List.mem_append.1 he with he | he
    · rcases List.mem_append.1 he with he | he
      · exact hd e (List.mem_filter.1 he).1
      · obtain ⟨i, -, hi, rfl⟩ := Memory.mem_fresh.1 he
        exact hi
    · exact hd e (List.mem_filter.1 he).1

/-- Every write of one element keeps the canonical form. -/
theorem Memory.wf_write {m : Memory α} (h : Memory.wf d m) (a : Nat) (v : α) :
    Memory.wf d (Memory.write d m a v) := Memory.wf_writeRange h a 1 fun _ => v

/-- The empty memory is canonical. -/
theorem Memory.wf_nil : Memory.wf d ([] : Memory α) := ⟨List.Pairwise.nil, by simp⟩

/-- Distinct elements of the grid have distinct indices, as long as the subcarrier stays below the stride. -/
theorem gridKey_inj {k l k' l' : Nat} (hk : k < gridStride) (hk' : k' < gridStride)
    (h : gridKey k l = gridKey k' l') : k = k' ∧ l = l' := by
  unfold gridKey at h
  simp only [gridStride] at *
  omega

end Sys2Proof.Machine
end

