-- ==== Sys2Proof/Laws/State.lean ====
section
/-! SUPPORT. What each shared update of the state does to each field: one lemma per field, true by definition. -/

namespace Sys2Proof.Machine

variable (s : State)

/-! ### raise -/

@[simp] theorem State.raise_irqEn (e : CmdError) : (s.raise e).irqEn = s.irqEn := rfl
@[simp] theorem State.raise_cfgValid (e : CmdError) : (s.raise e).cfgValid = s.cfgValid := rfl
@[simp] theorem State.raise_done (e : CmdError) : (s.raise e).done = s.done := rfl
@[simp] theorem State.raise_err (e : CmdError) : (s.raise e).err = true := rfl
@[simp] theorem State.raise_errCode (e : CmdError) : (s.raise e).errCode = if s.err then s.errCode else e.code := rfl
@[simp] theorem State.raise_pending (e : CmdError) : (s.raise e).pending = s.pending := rfl
@[simp] theorem State.raise_arg0 (e : CmdError) : (s.raise e).arg0 = s.arg0 := rfl
@[simp] theorem State.raise_arg1 (e : CmdError) : (s.raise e).arg1 = s.arg1 := rfl
@[simp] theorem State.raise_arg2 (e : CmdError) : (s.raise e).arg2 = s.arg2 := rfl
@[simp] theorem State.raise_cfg (e : CmdError) : (s.raise e).cfg = s.cfg := rfl
@[simp] theorem State.raise_eff (e : CmdError) : (s.raise e).eff = s.eff := rfl
@[simp] theorem State.raise_prbs (e : CmdError) : (s.raise e).prbs = s.prbs := rfl
@[simp] theorem State.raise_map (e : CmdError) : (s.raise e).map = s.map := rfl
@[simp] theorem State.raise_rs (e : CmdError) : (s.raise e).rs = s.rs := rfl
@[simp] theorem State.raise_grid (e : CmdError) : (s.raise e).grid = s.grid := rfl
@[simp] theorem State.raise_out (e : CmdError) : (s.raise e).out = s.out := rfl
@[simp] theorem State.raise_env (e : CmdError) : (s.raise e).env = s.env := rfl

/-! ### complete -/

@[simp] theorem State.complete_irqEn : (s.complete).irqEn = s.irqEn := rfl
@[simp] theorem State.complete_cfgValid : (s.complete).cfgValid = s.cfgValid := rfl
@[simp] theorem State.complete_done : (s.complete).done = true := rfl
@[simp] theorem State.complete_err : (s.complete).err = s.err := rfl
@[simp] theorem State.complete_errCode : (s.complete).errCode = s.errCode := rfl
@[simp] theorem State.complete_pending : (s.complete).pending = none := rfl
@[simp] theorem State.complete_arg0 : (s.complete).arg0 = s.arg0 := rfl
@[simp] theorem State.complete_arg1 : (s.complete).arg1 = s.arg1 := rfl
@[simp] theorem State.complete_arg2 : (s.complete).arg2 = s.arg2 := rfl
@[simp] theorem State.complete_cfg : (s.complete).cfg = s.cfg := rfl
@[simp] theorem State.complete_eff : (s.complete).eff = s.eff := rfl
@[simp] theorem State.complete_prbs : (s.complete).prbs = s.prbs := rfl
@[simp] theorem State.complete_map : (s.complete).map = s.map := rfl
@[simp] theorem State.complete_rs : (s.complete).rs = s.rs := rfl
@[simp] theorem State.complete_grid : (s.complete).grid = s.grid := rfl
@[simp] theorem State.complete_out : (s.complete).out = s.out := rfl
@[simp] theorem State.complete_env : (s.complete).env = s.env := rfl

/-! ### clearReport -/

@[simp] theorem State.clearReport_irqEn (d e : Bool) : (s.clearReport d e).irqEn = s.irqEn := rfl
@[simp] theorem State.clearReport_cfgValid (d e : Bool) : (s.clearReport d e).cfgValid = s.cfgValid := rfl
@[simp] theorem State.clearReport_done (d e : Bool) : (s.clearReport d e).done = (s.done && !d) := rfl
@[simp] theorem State.clearReport_err (d e : Bool) : (s.clearReport d e).err = (s.err && !e) := rfl
@[simp] theorem State.clearReport_errCode (d e : Bool) : (s.clearReport d e).errCode = if e then 0 else s.errCode := rfl
@[simp] theorem State.clearReport_pending (d e : Bool) : (s.clearReport d e).pending = s.pending := rfl
@[simp] theorem State.clearReport_arg0 (d e : Bool) : (s.clearReport d e).arg0 = s.arg0 := rfl
@[simp] theorem State.clearReport_arg1 (d e : Bool) : (s.clearReport d e).arg1 = s.arg1 := rfl
@[simp] theorem State.clearReport_arg2 (d e : Bool) : (s.clearReport d e).arg2 = s.arg2 := rfl
@[simp] theorem State.clearReport_cfg (d e : Bool) : (s.clearReport d e).cfg = s.cfg := rfl
@[simp] theorem State.clearReport_eff (d e : Bool) : (s.clearReport d e).eff = s.eff := rfl
@[simp] theorem State.clearReport_prbs (d e : Bool) : (s.clearReport d e).prbs = s.prbs := rfl
@[simp] theorem State.clearReport_map (d e : Bool) : (s.clearReport d e).map = s.map := rfl
@[simp] theorem State.clearReport_rs (d e : Bool) : (s.clearReport d e).rs = s.rs := rfl
@[simp] theorem State.clearReport_grid (d e : Bool) : (s.clearReport d e).grid = s.grid := rfl
@[simp] theorem State.clearReport_out (d e : Bool) : (s.clearReport d e).out = s.out := rfl
@[simp] theorem State.clearReport_env (d e : Bool) : (s.clearReport d e).env = s.env := rfl

/-! ### failConfig -/

@[simp] theorem State.failConfig_irqEn (e : CmdError) : (s.failConfig e).irqEn = s.irqEn := rfl
@[simp] theorem State.failConfig_cfgValid (e : CmdError) : (s.failConfig e).cfgValid = false := rfl
@[simp] theorem State.failConfig_done (e : CmdError) : (s.failConfig e).done = s.done := rfl
@[simp] theorem State.failConfig_err (e : CmdError) : (s.failConfig e).err = true := rfl
@[simp] theorem State.failConfig_errCode (e : CmdError) : (s.failConfig e).errCode = if s.err then s.errCode else e.code := rfl
@[simp] theorem State.failConfig_pending (e : CmdError) : (s.failConfig e).pending = s.pending := rfl
@[simp] theorem State.failConfig_arg0 (e : CmdError) : (s.failConfig e).arg0 = s.arg0 := rfl
@[simp] theorem State.failConfig_arg1 (e : CmdError) : (s.failConfig e).arg1 = s.arg1 := rfl
@[simp] theorem State.failConfig_arg2 (e : CmdError) : (s.failConfig e).arg2 = s.arg2 := rfl
@[simp] theorem State.failConfig_cfg (e : CmdError) : (s.failConfig e).cfg = s.cfg := rfl
@[simp] theorem State.failConfig_eff (e : CmdError) : (s.failConfig e).eff = s.eff := rfl
@[simp] theorem State.failConfig_prbs (e : CmdError) : (s.failConfig e).prbs = s.prbs := rfl
@[simp] theorem State.failConfig_map (e : CmdError) : (s.failConfig e).map = s.map := rfl
@[simp] theorem State.failConfig_rs (e : CmdError) : (s.failConfig e).rs = s.rs := rfl
@[simp] theorem State.failConfig_grid (e : CmdError) : (s.failConfig e).grid = [] := rfl
@[simp] theorem State.failConfig_out (e : CmdError) : (s.failConfig e).out = [] := rfl
@[simp] theorem State.failConfig_env (e : CmdError) : (s.failConfig e).env = s.env := rfl

/-! ### toReset -/

@[simp] theorem State.toReset_irqEn : (s.toReset).irqEn = State.reset.irqEn := rfl
@[simp] theorem State.toReset_cfgValid : (s.toReset).cfgValid = State.reset.cfgValid := rfl
@[simp] theorem State.toReset_done : (s.toReset).done = State.reset.done := rfl
@[simp] theorem State.toReset_err : (s.toReset).err = State.reset.err := rfl
@[simp] theorem State.toReset_errCode : (s.toReset).errCode = State.reset.errCode := rfl
@[simp] theorem State.toReset_pending : (s.toReset).pending = State.reset.pending := rfl
@[simp] theorem State.toReset_arg0 : (s.toReset).arg0 = State.reset.arg0 := rfl
@[simp] theorem State.toReset_arg1 : (s.toReset).arg1 = State.reset.arg1 := rfl
@[simp] theorem State.toReset_arg2 : (s.toReset).arg2 = State.reset.arg2 := rfl
@[simp] theorem State.toReset_cfg : (s.toReset).cfg = State.reset.cfg := rfl
@[simp] theorem State.toReset_eff : (s.toReset).eff = State.reset.eff := rfl
@[simp] theorem State.toReset_prbs : (s.toReset).prbs = State.reset.prbs := rfl
@[simp] theorem State.toReset_map : (s.toReset).map = State.reset.map := rfl
@[simp] theorem State.toReset_rs : (s.toReset).rs = State.reset.rs := rfl
@[simp] theorem State.toReset_grid : (s.toReset).grid = State.reset.grid := rfl
@[simp] theorem State.toReset_out : (s.toReset).out = State.reset.out := rfl
@[simp] theorem State.toReset_env : (s.toReset).env = s.env := rfl

/-! ### observe -/

@[simp] theorem State.observe_irqEn (o : Observation) : (s.observe o).irqEn = s.irqEn := rfl
@[simp] theorem State.observe_cfgValid (o : Observation) : (s.observe o).cfgValid = s.cfgValid := rfl
@[simp] theorem State.observe_done (o : Observation) : (s.observe o).done = s.done := rfl
@[simp] theorem State.observe_err (o : Observation) : (s.observe o).err = s.err := rfl
@[simp] theorem State.observe_errCode (o : Observation) : (s.observe o).errCode = s.errCode := rfl
@[simp] theorem State.observe_pending (o : Observation) : (s.observe o).pending = s.pending := rfl
@[simp] theorem State.observe_arg0 (o : Observation) : (s.observe o).arg0 = s.arg0 := rfl
@[simp] theorem State.observe_arg1 (o : Observation) : (s.observe o).arg1 = s.arg1 := rfl
@[simp] theorem State.observe_arg2 (o : Observation) : (s.observe o).arg2 = s.arg2 := rfl
@[simp] theorem State.observe_cfg (o : Observation) : (s.observe o).cfg = s.cfg := rfl
@[simp] theorem State.observe_eff (o : Observation) : (s.observe o).eff = s.eff := rfl
@[simp] theorem State.observe_prbs (o : Observation) : (s.observe o).prbs = s.prbs := rfl
@[simp] theorem State.observe_map (o : Observation) : (s.observe o).map = s.map := rfl
@[simp] theorem State.observe_rs (o : Observation) : (s.observe o).rs = s.rs := rfl
@[simp] theorem State.observe_grid (o : Observation) : (s.observe o).grid = s.grid := rfl
@[simp] theorem State.observe_out (o : Observation) : (s.observe o).out = s.out := rfl
@[simp] theorem State.observe_env (o : Observation) : (s.observe o).env = { s.env with observed := o :: s.env.observed } := rfl

/-! ### drew -/

@[simp] theorem State.drew_irqEn (n : Nat) : (s.drew n).irqEn = s.irqEn := rfl
@[simp] theorem State.drew_cfgValid (n : Nat) : (s.drew n).cfgValid = s.cfgValid := rfl
@[simp] theorem State.drew_done (n : Nat) : (s.drew n).done = s.done := rfl
@[simp] theorem State.drew_err (n : Nat) : (s.drew n).err = s.err := rfl
@[simp] theorem State.drew_errCode (n : Nat) : (s.drew n).errCode = s.errCode := rfl
@[simp] theorem State.drew_pending (n : Nat) : (s.drew n).pending = s.pending := rfl
@[simp] theorem State.drew_arg0 (n : Nat) : (s.drew n).arg0 = s.arg0 := rfl
@[simp] theorem State.drew_arg1 (n : Nat) : (s.drew n).arg1 = s.arg1 := rfl
@[simp] theorem State.drew_arg2 (n : Nat) : (s.drew n).arg2 = s.arg2 := rfl
@[simp] theorem State.drew_cfg (n : Nat) : (s.drew n).cfg = s.cfg := rfl
@[simp] theorem State.drew_eff (n : Nat) : (s.drew n).eff = s.eff := rfl
@[simp] theorem State.drew_prbs (n : Nat) : (s.drew n).prbs = s.prbs := rfl
@[simp] theorem State.drew_map (n : Nat) : (s.drew n).map = s.map := rfl
@[simp] theorem State.drew_rs (n : Nat) : (s.drew n).rs = s.rs := rfl
@[simp] theorem State.drew_grid (n : Nat) : (s.drew n).grid = s.grid := rfl
@[simp] theorem State.drew_out (n : Nat) : (s.drew n).out = s.out := rfl
@[simp] theorem State.drew_env (n : Nat) : (s.drew n).env = { s.env with draws := s.env.draws + n } := rfl

/-! ### popTurn -/

@[simp] theorem State.popTurn_irqEn : (s.popTurn).irqEn = s.irqEn := rfl
@[simp] theorem State.popTurn_cfgValid : (s.popTurn).cfgValid = s.cfgValid := rfl
@[simp] theorem State.popTurn_done : (s.popTurn).done = s.done := rfl
@[simp] theorem State.popTurn_err : (s.popTurn).err = s.err := rfl
@[simp] theorem State.popTurn_errCode : (s.popTurn).errCode = s.errCode := rfl
@[simp] theorem State.popTurn_pending : (s.popTurn).pending = s.pending := rfl
@[simp] theorem State.popTurn_arg0 : (s.popTurn).arg0 = s.arg0 := rfl
@[simp] theorem State.popTurn_arg1 : (s.popTurn).arg1 = s.arg1 := rfl
@[simp] theorem State.popTurn_arg2 : (s.popTurn).arg2 = s.arg2 := rfl
@[simp] theorem State.popTurn_cfg : (s.popTurn).cfg = s.cfg := rfl
@[simp] theorem State.popTurn_eff : (s.popTurn).eff = s.eff := rfl
@[simp] theorem State.popTurn_prbs : (s.popTurn).prbs = s.prbs := rfl
@[simp] theorem State.popTurn_map : (s.popTurn).map = s.map := rfl
@[simp] theorem State.popTurn_rs : (s.popTurn).rs = s.rs := rfl
@[simp] theorem State.popTurn_grid : (s.popTurn).grid = s.grid := rfl
@[simp] theorem State.popTurn_out : (s.popTurn).out = s.out := rfl
@[simp] theorem State.popTurn_env : (s.popTurn).env = { s.env with agenda := s.env.agenda.tail } := rfl

end Sys2Proof.Machine
end

