-- ==== Sys2Proof/Laws/Ops.lean ====
section
/-! SUPPORT. What each shared operation of the commands and of the step can do, said once. -/

namespace Sys2Proof.Machine

/-- A command answers its whole effect, or the state with its first error raised. -/
theorem State.settle_next {s t : State} {r : Except CmdError State} :
    s.settle r = .next t ↔ r = .ok t ∨ ∃ e, r = .error e ∧ t = s.raise e := by
  cases r with
  | ok u => simp [State.settle]
  | error e => simp [State.settle, eq_comm]

/-- A settled command never stops the machine. -/
theorem State.settle_answers (s : State) (r : Except CmdError State) : ∃ t, s.settle r = .next t := by
  cases r <;> exact ⟨_, rfl⟩

theorem State.needConfig_ok {s t : State} {k : Except CmdError State} :
    s.needConfig k = .ok t ↔ s.cfgValid = true ∧ k = .ok t := by
  unfold State.needConfig
  split <;> simp_all

theorem State.needNormalCp_ok {s t : State} {k : Except CmdError State} :
    s.needNormalCp k = .ok t ↔ s.cfgValid = true ∧ s.eff.cp = 0 ∧ k = .ok t := by
  unfold State.needNormalCp
  rw [State.needConfig_ok]
  split <;> simp_all

theorem needRange_ok {inside : Prop} [Decidable inside] {t : State} {k : Except CmdError State} :
    needRange inside k = .ok t ↔ inside ∧ k = .ok t := by
  unfold needRange
  split <;> simp_all

@[simp] theorem State.settle_ok (s t : State) : s.settle (.ok t) = .next t := rfl

@[simp] theorem State.settle_error (s : State) (e : CmdError) : s.settle (.error e) = .next (s.raise e) := rfl

theorem State.needConfig_of_valid {s : State} (h : s.cfgValid = true) (k : Except CmdError State) :
    s.needConfig k = k := if_pos h

theorem State.needConfig_of_invalid {s : State} (h : s.cfgValid = false) (k : Except CmdError State) :
    s.needConfig k = .error .notConfigured := by
  unfold State.needConfig; rw [h]; rfl

theorem State.needNormalCp_of_normal {s : State} (h : s.cfgValid = true) (hc : s.eff.cp = 0)
    (k : Except CmdError State) : s.needNormalCp k = k := by
  unfold State.needNormalCp; rw [State.needConfig_of_valid h, if_pos hc]

theorem State.needNormalCp_of_extended {s : State} (h : s.cfgValid = true) (hc : s.eff.cp ≠ 0)
    (k : Except CmdError State) : s.needNormalCp k = .error .extCpUnsupported := by
  unfold State.needNormalCp; rw [State.needConfig_of_valid h, if_neg hc]

theorem State.needNormalCp_of_invalid {s : State} (h : s.cfgValid = false) (k : Except CmdError State) :
    s.needNormalCp k = .error .notConfigured := State.needConfig_of_invalid h _

theorem needRange_of {inside : Prop} [Decidable inside] (h : inside) (k : Except CmdError State) :
    needRange inside k = k := if_pos h

theorem needRange_of_not {inside : Prop} [Decidable inside] (h : ¬ inside) (k : Except CmdError State) :
    needRange inside k = .error .range := if_neg h

/-- Completion answers a next state exactly when the command did. -/
theorem finish_next {r : Host.Outcome State Fault Refusal} {t : State} :
    finish r = .next t ↔ ∃ u, r = .next u ∧ t = u.complete := by
  cases r <;> simp [finish, eq_comm]

/-- What a step does: the host's access, the engine's turn, or a power-on reset. -/
theorem step_cases {s t : State} (h : step s = .next t) :
    (∃ a rest, s.env.agenda = .host a :: rest ∧ hostAccess a s.popTurn = .next t)
      ∨ (EngineMoves s ∧ engineTurn s.popTurn = .next t)
      ∨ (∃ rest, s.env.agenda = .powerOn :: rest ∧ t = s.popTurn.toReset) := by
  unfold step at h
  split at h
  · rename_i a rest ha
    exact .inl ⟨a, rest, ha, h⟩
  · rename_i rest ha
    exact .inr (.inl ⟨.inr ⟨rest, ha⟩, h⟩)
  · rename_i rest ha
    exact .inr (.inr ⟨rest, ha, (Host.Outcome.next.inj h).symm⟩)
  · rename_i ha
    refine .inr (.inl ⟨.inl ha, ?_⟩)
    have : s.popTurn = s := by
      unfold State.popTurn
      rw [ha]
      show { s with env := { s.env with agenda := [] } } = s
      rw [← ha]
    rw [this]
    exact h

/-- The engine's turn when it moves: `engineTurn` at the state whose turn is taken. -/
theorem step_engine {s : State} (h : EngineMoves s) : step s = engineTurn s.popTurn := by
  unfold step
  rcases h with h | ⟨rest, h⟩
  · have : s.popTurn = s := by
      unfold State.popTurn
      rw [h]
      show { s with env := { s.env with agenda := [] } } = s
      rw [← h]
    rw [this, h]
  · rw [h]

/-- The host's turn. -/
theorem step_host {s : State} {a : HostAccess} (h : HostMoves s a) : step s = hostAccess a s.popTurn := by
  obtain ⟨rest, h⟩ := h
  unfold step
  rw [h]

/-- What the engine's turn does: nothing when idle, the command's rule and completion when one is pending, the
error ILLEGAL_CMD and completion when the word is none. -/
theorem engineTurn_cases {s t : State} (h : engineTurn s = .next t) :
    (s.pending = none ∧ t = s)
      ∨ (∃ w i u, s.pending = some w ∧ decode w = .command i ∧ exec i s = .next u ∧ t = u.complete)
      ∨ (∃ w why, s.pending = some w ∧ decode w = .illegal why ∧ t = (s.raise .illegalCmd).complete) := by
  unfold engineTurn at h
  split at h
  · rename_i w hw
    unfold engineStep at h
    split at h
    · rename_i i hi
      obtain ⟨u, hu, rfl⟩ := finish_next.1 h
      exact .inr (.inl ⟨w, i, u, hw, hi, hu, rfl⟩)
    · rename_i why hi
      obtain ⟨u, hu, rfl⟩ := finish_next.1 h
      cases hu
      exact .inr (.inr ⟨w, why, hw, hi, rfl⟩)
  · rename_i hw
    cases h
    exact .inl ⟨hw, rfl⟩

end Sys2Proof.Machine
end

