-- ==== Sys2Proof/Laws/PerInstr.lean ====
section
/-! SUPPORT. One family of lemmas per command: every encoded command lies in its row of the opcode map. -/

/-- The word of a command, masked as its row says, is its row's match word (30_encoding.md R118). -/
def Sys2Proof.Laws.InOpcodeRow.Statement (i : Sys2Proof.Instr) : Prop :=
  Sys2Proof.encode i &&& Sys2Proof.rowMask i = Sys2Proof.rowMatch i

namespace Sys2Proof.Laws

theorem InOpcodeRow.nop : InOpcodeRow.Statement .nop := by
  unfold InOpcodeRow.Statement; decide

theorem InOpcodeRow.cfgApply : InOpcodeRow.Statement .cfgApply := by
  unfold InOpcodeRow.Statement; decide

theorem InOpcodeRow.gridClear : InOpcodeRow.Statement .gridClear := by
  unfold InOpcodeRow.Statement; decide

theorem InOpcodeRow.prbsSeed : InOpcodeRow.Statement .prbsSeed := by
  unfold InOpcodeRow.Statement; decide

theorem InOpcodeRow.prbsGen (cnt : BitVec 6) :
    InOpcodeRow.Statement (.prbsGen cnt) := by
  revert cnt; unfold InOpcodeRow.Statement; decide +kernel

theorem InOpcodeRow.prbsSkip : InOpcodeRow.Statement .prbsSkip := by
  unfold InOpcodeRow.Statement; decide

theorem InOpcodeRow.qamMap (ord : Order) :
    InOpcodeRow.Statement (.qamMap ord) := by
  cases ord <;> (unfold InOpcodeRow.Statement; decide)

theorem InOpcodeRow.qamFill (tag : Tag) (ord : Order) :
    InOpcodeRow.Statement (.qamFill tag ord) := by
  cases tag <;> cases ord <;> (unfold InOpcodeRow.Statement; decide)

theorem InOpcodeRow.rsCinit (sel : Sel) :
    InOpcodeRow.Statement (.rsCinit sel) := by
  cases sel <;> (unfold InOpcodeRow.Statement; decide)

theorem InOpcodeRow.rsGen (sel : Sel) :
    InOpcodeRow.Statement (.rsGen sel) := by
  cases sel <;> (unfold InOpcodeRow.Statement; decide)

theorem InOpcodeRow.ofdmSym (sym : BitVec 12) :
    InOpcodeRow.Statement (.ofdmSym sym) := by
  revert sym; unfold InOpcodeRow.Statement; decide +kernel

theorem InOpcodeRow.ofdmSlot (slot : BitVec 8) :
    InOpcodeRow.Statement (.ofdmSlot slot) := by
  revert slot; unfold InOpcodeRow.Statement; decide +kernel

theorem InOpcodeRow.ofdmFrame : InOpcodeRow.Statement .ofdmFrame := by
  unfold InOpcodeRow.Statement; decide

end Sys2Proof.Laws
end

