-- ==== Sys2Proof/Laws/Prbs.lean ====
section
/-! SUPPORT. The windows of the Gold generator: the bits of a step, and steps in sequence. -/

namespace Sys2Proof.Machine

/-- The bits of a window one index on (41_prbs.md R182). -/
theorem shiftIn_getLsbD (w : BitVec 31) (b : Bool) (i : Nat) (h : i < 31) :
    (shiftIn w b).getLsbD i = if i = 30 then b else w.getLsbD (i + 1) := by
  unfold shiftIn
  rw [BitVec.getLsbD_append]
  by_cases hi : i < 30
  · rw [if_pos hi, if_neg (by omega)]
    simp [hi, Nat.add_comm]
  · obtain rfl : i = 30 := by omega
    simp

@[simp] theorem advance_zero (w : Windows) : advance 0 w = w := rfl

theorem advance_succ (n : Nat) (w : Windows) : advance (n + 1) w = advance n (stepWindows w) := rfl

/-- Advancing is the window step of R182, iterated. -/
theorem advance_eq_iterate (n : Nat) (w : Windows) : advance n w = stepWindows^[n] w := by
  induction n generalizing w with
  | zero => rfl
  | succ n ih => rw [advance_succ, ih, Function.iterate_succ_apply]

/-- Steps add up. -/
theorem advance_add (m n : Nat) (w : Windows) : advance (m + n) w = advance n (advance m w) := by
  induction m generalizing w with
  | zero => simp
  | succ m ih => rw [Nat.succ_add, advance_succ, ih, advance_succ]

/-- The window onto x1 does not depend on the one onto x2. -/
theorem advance_x1 (n : Nat) (a b b' : BitVec 31) : (advance n ⟨a, b⟩).x1 = (advance n ⟨a, b'⟩).x1 := by
  induction n generalizing a b b' with
  | zero => rfl
  | succ n ih => exact ih _ _ _

/-- The first packed bit is bit 0, the others follow from the stepped windows (41_prbs.md R183). -/
theorem packBits_testBit (n : Nat) (w : Windows) (j : Nat) (h : j < n) :
    (packBits n w).testBit j = (advance j w).bit := by
  induction n generalizing w j with
  | zero => omega
  | succ n ih =>
    cases j with
    | zero =>
      rw [packBits]
      cases hb : w.bit <;> simp [hb]
    | succ j =>
      have hdiv : packBits (n + 1) w / 2 = packBits n (stepWindows w) := by
        rw [packBits]
        cases w.bit
        · simp
        · simp
          omega
      rw [Nat.testBit_succ, hdiv, ih _ _ (by omega), advance_succ]

theorem packBits_lt (n : Nat) (w : Windows) : packBits n w < 2 ^ n := by
  induction n generalizing w with
  | zero => simp [packBits]
  | succ n ih =>
    have := ih (stepWindows w)
    rw [packBits, Nat.pow_succ]
    cases w.bit <;> (simp; omega)

end Sys2Proof.Machine
end

