-- ==== Sys2Proof/Laws/Registers.lean ====
section
/-! SUPPORT. The register map: every register is found at its own offset, and STATUS, CMD and CTRL are in no
command's sets. -/

namespace Sys2Proof.Machine

/-- The map has one register at each register's offset. -/
theorem regAt_offset (r : RegName) : regAt r.offset = some r := by
  cases r <;> first
    | rfl
    | (rename_i i; revert i; decide +kernel)

/-- Every register's offset is a multiple of 4. -/
theorem accessLegal_offset (r : RegName) : accessLegal 32 r.offset = true := by
  cases r <;> first
    | rfl
    | (rename_i i; revert i; decide +kernel)

/-- An offset that is no register's is unlisted. -/
theorem regAt_unlisted {offset : BitVec 12} (h : ∀ r : RegName, r.offset ≠ offset) : regAt offset = none := by
  unfold regAt
  rw [List.find?_eq_none]
  intro r _
  simpa using h r

/-- Every name is in the list of registers. -/
theorem mem_allRegs (r : RegName) : r ∈ allRegs := by
  cases r <;> simp [allRegs, effectiveRegs]

/-- With nothing pending there is no footprint. -/
theorem pendingFootprint_idle {s : State} (h : s.pending = none) : s.pendingFootprint = .none := by
  simp [State.pendingFootprint, State.pendingCommand, h]

/-- The footprint of a pending word that decodes is its command's. -/
theorem pendingFootprint_command {s : State} {w : BitVec 32} {i : Instr} (h : s.pending = some w)
    (hd : decode w = .command i) : s.pendingFootprint = footprint i := by
  simp [State.pendingFootprint, State.pendingCommand, h, hd]

/-- Writes to STATUS, CMD and CTRL are never hazards (70_reset_and_hazards.md R352). -/
theorem controlRegs_free (s : State) :
    s.writeHazard .status = false ∧ s.writeHazard .cmd = false ∧ s.writeHazard .ctrl = false := by
  have free : ∀ i : Instr, ∀ r ∈ [RegName.status, .cmd, .ctrl],
      r ∉ (footprint i).readRegs ∧ r ∉ (footprint i).writeRegs := by
    intro i
    cases i <;> simp [footprint, effectiveRegs, Footprint.none]
  unfold State.writeHazard State.pendingFootprint
  split
  · rename_i i _
    have := free i
    simp_all
  · simp [Footprint.none]

/-- A tag's code names it (10_state.md R52). -/
theorem tag_ofCode_code (t : Tag) : Tag.ofCode t.code = some t := by cases t <;> rfl

end Sys2Proof.Machine
end

