-- ==== Sys2Proof/Laws/Step.lean ====
section
/-! SUPPORT. What every step does to the agenda, and how a run unfolds. -/

namespace Sys2Proof.Machine

/-- A command's step leaves the agenda alone. -/
theorem exec_agenda {i : Instr} {s t : State} (h : exec i s = .next t) : t.env.agenda = s.env.agenda := by
  have settled : ∀ {r : Except CmdError State}, (∀ u, r = .ok u → u.env.agenda = s.env.agenda) →
      s.settle r = .next t → t.env.agenda = s.env.agenda := by
    intro r hr h
    rcases State.settle_next.1 h with h | ⟨e, -, rfl⟩
    · exact hr _ h
    · rfl
  cases i with
  | nop => cases h; rfl
  | cfgApply => cases h; unfold State.applyConfig; split <;> rfl
  | gridClear => exact settled (fun u hu => by rw [State.needConfig_ok] at hu; cases hu.2; rfl) h
  | prbsSeed => cases h; rfl
  | prbsGen => cases h; rfl
  | prbsSkip => cases h; rfl
  | qamMap => cases h; rfl
  | qamFill => exact settled (fun u hu => by rw [State.needConfig_ok, needRange_ok] at hu; cases hu.2.2; rfl) h
  | rsCinit => exact settled (fun u hu => by rw [State.needConfig_ok] at hu; cases hu.2; rfl) h
  | rsGen => exact settled (fun u hu => by rw [State.needConfig_ok, needRange_ok] at hu; cases hu.2.2; rfl) h
  | ofdmSym =>
    exact settled (fun u hu => by rw [State.needNormalCp_ok, needRange_ok] at hu; cases hu.2.2.2; rfl) h
  | ofdmSlot =>
    exact settled (fun u hu => by rw [State.needNormalCp_ok, needRange_ok] at hu; cases hu.2.2.2; rfl) h
  | ofdmFrame => exact settled (fun u hu => by rw [State.needNormalCp_ok] at hu; cases hu.2.2; rfl) h

/-- A register write leaves the environment alone. -/
theorem writeReg_env (s : State) (r : RegName) (v : BitVec 32) : (s.writeReg r v).env = s.env := by
  cases r <;> first
    | rfl
    | (simp only [State.writeReg, State.writeCtrl, State.writeCmd]; split <;> rfl)

/-- A host access leaves the agenda alone. -/
theorem hostAccess_agenda {a : HostAccess} {s t : State} (h : hostAccess a s = .next t) :
    t.env.agenda = s.env.agenda := by
  cases a with
  | regRead =>
    simp only [hostAccess, hostRegRead] at h
    split at h <;> cases h
    rfl
  | regWrite =>
    simp only [hostAccess, hostRegWrite] at h
    split at h
    · split at h
      · cases h; rfl
      · split at h
        · cases h
        · cases h; rw [writeReg_env]
    · cases h
  | gridRead =>
    simp only [hostAccess, hostGridRead] at h
    repeat' split at h
    all_goals first | (cases h; rfl) | cases h
  | gridWrite =>
    simp only [hostAccess, hostGridWrite] at h
    repeat' split at h
    all_goals first | (cases h; rfl) | cases h
  | outRead =>
    simp only [hostAccess, hostOutRead] at h
    repeat' split at h
    all_goals first | (cases h; rfl) | cases h
  | outWrite => cases h

/-- A host access leaves a pending command pending, unless it is the soft reset. -/
theorem hostAccess_pending {a : HostAccess} {s t : State} {w : BitVec 32} (hp : s.pending = some w)
    (h : hostAccess a s = .next t) :
    t.pending = some w ∨ ∃ v : BitVec 32, v.getLsbD 0 = true ∧ a = .regWrite 32 RegName.ctrl.offset v := by
  cases a with
  | regRead =>
    simp only [hostAccess, hostRegRead] at h
    split at h
    · cases h; exact .inl hp
    · cases h
  | regWrite width off v =>
    simp only [hostAccess, hostRegWrite] at h
    split at h
    · rename_i hl
      split at h
      · cases h; exact .inl hp
      · rename_i r hr
        have ho : r.offset = off := by
          have := List.find?_some hr
          simpa using this
        have hw : width = 32 := by
          simp only [accessLegal, Bool.and_eq_true, beq_iff_eq] at hl
          exact hl.1
        split at h
        · cases h
        · cases h
          cases r <;> first
            | exact .inl hp
            | (left; simp only [State.writeReg, State.writeCmd, State.busy, hp]; exact hp)
            | (simp only [State.writeReg, State.writeCtrl]
               split
               · rename_i hv
                 exact .inr ⟨v, hv, by rw [← ho, hw]⟩
               · exact .inl hp)
    · cases h
  | gridRead =>
    simp only [hostAccess, hostGridRead] at h
    repeat' split at h
    all_goals first | (cases h; exact .inl hp) | cases h
  | gridWrite =>
    simp only [hostAccess, hostGridWrite] at h
    repeat' split at h
    all_goals first | (cases h; exact .inl hp) | cases h
  | outRead =>
    simp only [hostAccess, hostOutRead] at h
    repeat' split at h
    all_goals first | (cases h; exact .inl hp) | cases h
  | outWrite => cases h

/-- A step takes the turn at the head of the agenda and no other. -/
theorem step_agenda {s t : State} (h : step s = .next t) : t.env.agenda = s.env.agenda.tail := by
  rcases step_cases h with ⟨a, rest, -, h⟩ | ⟨-, h⟩ | ⟨rest, -, rfl⟩
  · rw [hostAccess_agenda h]; rfl
  · rcases engineTurn_cases h with ⟨-, rfl⟩ | ⟨w, i, u, -, -, hu, rfl⟩ | ⟨w, why, -, -, rfl⟩
    · rfl
    · show u.env.agenda = _
      rw [exec_agenda hu]; rfl
    · rfl
  · rfl

theorem run_of_step {M : Host.Core} {n : Nat} {s u : M.State} (h : M.step s = .next u) :
    M.run (n + 1) s = M.run n u := by
  rw [Host.Core.run, h]

theorem step_of_run {M : Host.Core} {n : Nat} {s t : M.State} (h : M.run (n + 1) s = .next t) :
    ∃ u, M.step s = .next u ∧ M.run n u = .next t := by
  rw [Host.Core.run] at h
  split at h
  · rename_i u hu
    exact ⟨u, hu, h⟩
  · cases h
  · cases h

/-- A run goes on from its first step. -/
theorem core_run_of_step {n : Nat} {s u : State} (h : step s = .next u) :
    Sys2Proof.core.run (n + 1) s = Sys2Proof.core.run n u :=
  run_of_step (M := Sys2Proof.core) h

/-- A run that answers has a first step. -/
theorem step_of_core_run {n : Nat} {s t : State} (h : Sys2Proof.core.run (n + 1) s = .next t) :
    ∃ u, step s = .next u ∧ Sys2Proof.core.run n u = .next t :=
  step_of_run (M := Sys2Proof.core) h

end Sys2Proof.Machine
end

