-- ==== Sys2Proof/Tests/Slice0.lean ====
section
/-! SUPPORT. The model's own tests: each check of WellFormed refuses an ill-formed term; the words of
30_encoding.md decode; the vectors of 95_test_vectors.md, one step each; and, for every statement with hypotheses,
a concrete state that meets them (`test_met_<statement>`). -/

namespace Sys2Proof.Tests

open Sys2Proof Sys2Proof.Machine

-- One test at a time: many kernel evaluations at once reserve more memory than a check may have.
set_option Elab.async false

/-! ### WellFormed refuses -/

/-- CNT 0, 33 and 63 (30_encoding.md R116). -/
theorem test_wellFormed_refuses_count :
    [0#6, 33#6, 63#6].map (fun c => (Instr.prbsGen c).WellFormed) = [false, false, false] := by decide

/-- TAG EMPTY (30_encoding.md R117). -/
theorem test_wellFormed_refuses_empty_tag : (Instr.qamFill .empty .qpsk).WellFormed = false := by decide

/-- The legal ends of the ranges pass. -/
theorem test_wellFormed_admits :
    ([Instr.prbsGen 1#6, .prbsGen 32#6, .qamFill .dmrs .qam256, .ofdmSym 4095#12].all Instr.WellFormed) = true := by
  decide

/-! ### Decoding: words written out from 30_encoding.md R111 and R118, opcode then fields -/

theorem test_decode_nop : decode 0b00000000000000000000000000000000#32 = .command .nop := by decide
theorem test_decode_cfgApply : decode 0b00000001000000000000000000000000#32 = .command .cfgApply := by decide
theorem test_decode_gridClear : decode 0b00000010000000000000000000000000#32 = .command .gridClear := by decide
theorem test_decode_prbsSeed : decode 0b00010000000000000000000000000000#32 = .command .prbsSeed := by decide
theorem test_decode_prbsGen : decode 0b00010001000000000000000000010011#32 = .command (.prbsGen 19#6) := by decide
theorem test_decode_prbsSkip : decode 0b00010010000000000000000000000000#32 = .command .prbsSkip := by decide
theorem test_decode_qamMap : decode 0b00100000000000000000000000000011#32 = .command (.qamMap .qam64) := by decide
theorem test_decode_qamFill :
    decode 0b00100001000000000000001100000100#32 = .command (.qamFill .coreset .qam256) := by decide
theorem test_decode_rsCinit : decode 0b00110000000000000000000000000001#32 = .command (.rsCinit .pbch) := by decide
theorem test_decode_rsGen : decode 0b00110001000000000000000000000010#32 = .command (.rsGen .raw) := by decide
theorem test_decode_ofdmSym : decode 0b01000000000000000000100010111010#32 = .command (.ofdmSym 0x8BA#12) := by decide
theorem test_decode_ofdmSlot : decode 0b01000001000000000000000010011111#32 = .command (.ofdmSlot 159#8) := by decide
theorem test_decode_ofdmFrame : decode 0b01000010000000000000000000000000#32 = .command .ofdmFrame := by decide

/-- Every TAG and ORD code a QAM_FILL word may hold (30_encoding.md R114, R117). -/
theorem test_decode_fields :
    [0x21000100#32, 0x21000201#32, 0x21000302#32, 0x21000403#32, 0x21000504#32].map decode
      = [.command (.qamFill .pdsch .bpsk), .command (.qamFill .pdcch .qpsk), .command (.qamFill .coreset .qam16),
         .command (.qamFill .ssb .qam64), .command (.qamFill .dmrs .qam256)] := by decide

/-- V-QAM-11, V-QAM-12, V-QAM-18, V-QAM-19, V-RS-18, V-OFDM-E6, V-ERR-1 and the ends of CNT (R116). -/
theorem test_decode_refuses :
    [0x20000005#32, 0x20000008#32, 0x21000001#32, 0x21000601#32, 0x31000003#32, 0x41000100#32, 0x03000000#32,
      0x11000000#32, 0x11000021#32, 0x11000040#32].map decode
      = [.illegal .illegalField, .illegal .mbzSet, .illegal .illegalField, .illegal .illegalField,
         .illegal .illegalField, .illegal .mbzSet, .illegal .reservedOpcode, .illegal .illegalField,
         .illegal .illegalField, .illegal .mbzSet] := by decide

theorem test_decodeTableWord :
    [decodeTableWord 32 0x4000008C, decodeTableWord 32 0x4000108C, decodeTableWord 32 0x21000501]
      = [some (.ofdmSym 140#12), none, some (.qamFill .dmrs .qpsk)] := by decide

/-! ### Helpers -/

/-- The next state of an outcome, if that is what it is. -/
def nextOf : Host.Outcome State Fault Refusal → Option State
  | .next t => some t
  | .fault _ => none
  | .refused _ => none

/-- What a register reads after an outcome. -/
def reads (o : Host.Outcome State Fault Refusal) (rs : List RegName) : Option (List (BitVec 32)) :=
  (nextOf o).map fun t => rs.map t.readReg

/-- A state with the given turns to come. -/
def turns (s : State) (ts : List Turn) : State := { s with env := { s.env with agenda := ts } }

/-- A state with ARG0, ARG1 and ARG2. -/
def args (s : State) (a0 a1 a2 : BitVec 32) : State := { s with arg0 := a0, arg1 := a1, arg2 := a2 }

/-- A state with a pending word and the engine to move. -/
def pend (s : State) (w : BitVec 32) : State := { s with pending := some w }

/-- Staged configuration, cell 0 unless stated. -/
def staged (mu cp nrb fs nfft : Nat) (cell : Nat := 0) : StagedConfig :=
  { mu := BitVec.ofNat 3 mu, cp := BitVec.ofNat 2 cp, nrb := BitVec.ofNat 9 nrb, cell := BitVec.ofNat 10 cell,
    fs := BitVec.ofNat 32 fs, nfft := BitVec.ofNat 16 nfft }

/-- V-CFG-10 of 95_test_vectors.md, legal under every limits. -/
def tinyConfig : StagedConfig := staged 0 0 1 240000 0

/-- Extended CP at μ 2 with sixteen useful samples, legal under every limits. -/
def extendedConfig : StagedConfig := staged 2 1 1 960000 0

/-- A state in which `c` has just been applied. -/
def applied (c : StagedConfig) : State := { State.reset with cfg := c, eff := c.derive, cfgValid := true }

/-- V-CFG-10 applied, one element of GRID and one of OUT not blank. -/
def tiny : State := { applied tinyConfig with grid := [(6, ⟨⟨5⟩, .pdsch⟩)], out := [(0, ⟨7⟩)] }

/-! ### Configuration vectors -/

/-- What a vector of V-CFG lists: N_USEFUL, N_FFT, CP_SHORT, CP_LONG, SLOT_SAMPLES, TOTAL_SLOTS, TOTAL_SYMBOLS,
TOTAL_SAMPLES and the CP lengths. -/
def derived (c : StagedConfig) : List Nat × List Nat :=
  let e := c.derive
  ([e.nUseful.toNat, e.nFft.toNat, e.cpShort.toNat, e.cpLong.toNat, e.slotSamples.toNat, e.totalSlots.toNat,
    e.totalSymbols.toNat, e.totalSamples.toNat], e.cpLen.map BitVec.toNat)

theorem test_cfg_3 : derived (staged 1 0 24 11520000 0)
    = ([384, 512, 27, 30, 5760, 20, 280, 115200], [31, 28, 28, 27, 27, 27, 27, 27, 27, 27, 27, 27, 27, 27]) := by
  decide +kernel

theorem test_cfg_5 : derived (staged 1 0 106 61440000 0)
    = ([2048, 2048, 144, 160, 30720, 20, 280, 614400],
       [162, 146, 145, 145, 145, 145, 145, 145, 145, 145, 145, 145, 145, 145]) := by decide +kernel

theorem test_cfg_11_13 : (derived (staged 0 0 1 180000 0)).2 = [1, 1, 1, 1, 1, 1, 1, 1, 1, 1, 1, 1, 0, 0]
    ∧ derived (staged 0 0 16 2880000 0)
        = ([192, 256, 14, 15, 2880, 10, 140, 28800], [15, 14, 14, 14, 14, 14, 14, 15, 13, 13, 13, 13, 13, 13]) := by
  decide +kernel

theorem test_cfg_15 : derived (staged 2 1 24 30720000 0)
    = ([512, 512, 0, 0, 0, 40, 480, 0], [0, 0, 0, 0, 0, 0, 0, 0, 0, 0, 0, 0, 0, 0]) := by decide +kernel

/-- The first error under the recommended limits. -/
def errorOf (c : StagedConfig) : Option CmdError := c.firstError ⟨273, 4096⟩

/-- V-CFG-E1 to V-CFG-E8: each of checks 1 to 5, and their order. -/
theorem test_cfg_errors_first :
    [errorOf (staged 1 2 24 11520000 0), errorOf (staged 5 3 24 11520000 0 1008),
      errorOf (staged 1 0 24 11520000 0 1008), errorOf (staged 5 0 24 11520000 0), errorOf (staged 7 1 24 0 0),
      errorOf (staged 1 1 24 11520000 0), errorOf (staged 1 0 0 11520000 0), errorOf (staged 1 0 274 11520000 0)]
      = [some .cfgCpInvalid, some .cfgCpInvalid, some .cfgCellRange, some .cfgMuRange, some .cfgMuRange,
         some .cfgCpMismatch, some .cfgNrbRange, some .cfgNrbRange] := by decide +kernel

/-- V-CFG-E9 to V-CFG-E16: each of checks 6 to 9, their order, and the last accepted value. -/
theorem test_cfg_errors_last :
    [errorOf (staged 1 0 24 11520001 0), errorOf (staged 1 0 24 0 0), errorOf (staged 1 0 24 11520000 256),
      errorOf (staged 1 0 24 11520000 384), errorOf (staged 1 0 24 11520000 8192),
      errorOf (staged 0 0 273 122880000 0), errorOf (staged 1 0 33 11520000 0), errorOf (staged 1 0 32 11520000 0)]
      = [some .cfgFsNotInteger, some .cfgFsNotInteger, some .cfgNfftSmall, some .cfgNfftLimit, some .cfgNfftLimit,
         some .cfgNfftLimit, some .cfgNrbRange, none] := by decide +kernel

/-- P4 of 95_test_vectors.md: a failing CFG_APPLY clears CFG_VALID, reports, and GRID and OUT are gone. -/
theorem test_cfgApply_fails :
    (fun t : State => (t.cfgValid, t.err, t.errCode, t.grid.isEmpty, t.out.isEmpty))
        (State.applyConfig ⟨273, 4096⟩ { tiny with cfg := staged 1 1 24 11520000 0 })
      = (false, true, 0x04#8, true, true) := by decide +kernel

/-- P2 of 95_test_vectors.md: STATUS is 0x2 before completion, N_FFT 16, CP_LEN_0 2. -/
theorem test_cfgApply_succeeds :
    [RegName.status, .nFft, .cpLen 0].map
        (State.applyConfig ⟨273, 4096⟩ { State.reset with cfg := tinyConfig }).readReg
      = [0x2#32, 16#32, 2#32] := by decide +kernel

/-! ### Housekeeping, PRBS, mapper -/

/-- V-NOP-1. -/
theorem test_nop : reads (step (pend tiny 0x00000000#32)) [.status, .errCode] = some [0x6#32, 0#32] := by
  decide +kernel

/-- V-CLR-1 and V-CLR-2. -/
theorem test_gridClear :
    (nextOf (exec .gridClear tiny)).map (fun t => (t.grid, t.out)) = some ([], [(0, ⟨7⟩)])
      ∧ reads (step (pend State.reset 0x02000000#32)) [.status, .errCode] = some [0xC#32, 0x10#32] := by
  decide +kernel

/-- V-PRBS-3: the windows after the seed 0x20000, computed 200 steps at a time. -/
theorem test_seedWindows : seedWindows 0x20000#31 = ⟨0x5E485840#31, 0x41C1C222#31⟩ := by
  unfold seedWindows
  rw [show goldOffset = 200 + (200 + (200 + (200 + (200 + (200 + (200 + 200)))))) from rfl]
  iterate 7 rw [advance_add]
  rw [show advance 200 ⟨0x00000001#31, 0x00020000#31⟩ = ⟨0x48020820#31, 0x6006600A#31⟩ from by decide +kernel,
    show advance 200 ⟨0x48020820#31, 0x6006600A#31⟩ = ⟨0x20C80488#31, 0x0015EA00#31⟩ from by decide +kernel,
    show advance 200 ⟨0x20C80488#31, 0x0015EA00#31⟩ = ⟨0x005A4808#31, 0x5DDDDDA2#31⟩ from by decide +kernel,
    show advance 200 ⟨0x005A4808#31, 0x5DDDDDA2#31⟩ = ⟨0x0812E8C8#31, 0x6088AA22#31⟩ from by decide +kernel,
    show advance 200 ⟨0x0812E8C8#31, 0x6088AA22#31⟩ = ⟨0x00924800#31, 0x4200032A#31⟩ from by decide +kernel,
    show advance 200 ⟨0x00924800#31, 0x4200032A#31⟩ = ⟨0x124822C0#31, 0x4F494F29#31⟩ from by decide +kernel,
    show advance 200 ⟨0x124822C0#31, 0x4F494F29#31⟩ = ⟨0x0C20C84C#31, 0x00AA1E00#31⟩ from by decide +kernel,
    show advance 200 ⟨0x0C20C84C#31, 0x00AA1E00#31⟩ = ⟨0x5E485840#31, 0x41C1C222#31⟩ from by decide +kernel]

/-- V-PRBS-3: only ARG0[30:0] is the seed, and PRBS_POS and PRBS_OUT are 0. -/
theorem test_prbsSeed :
    reads (exec .prbsSeed (args State.reset 0x80020000#32 0 0)) [.prbsCinit, .prbsX1, .prbsX2, .prbsPos, .prbsOut]
      = some [0x00020000#32, 0x5E485840#32, 0x41C1C222#32, 0#32, 0#32] := by
  have h : seededPrbs 0x20000#31 = ⟨0x20000#31, 0x5E485840#31, 0x41C1C222#31, 0#32, 0#32⟩ := by
    simp only [seededPrbs, test_seedWindows]
    rfl
  show some [_, _, _, _, _] = _
  show some ([RegName.prbsCinit, .prbsX1, .prbsX2, .prbsPos, .prbsOut].map
    ({ args State.reset 0x80020000#32 0 0 with prbs := seededPrbs 0x20000#31 } : State).readReg) = _
  rw [h]
  decide +kernel

/-- The PRBS registers of V-PRBS-3 after the seed. -/
def seeded : PrbsRegs := ⟨0x20000#31, 0x5E485840#31, 0x41C1C222#31, 0#32, 0#32⟩

/-- V-PRBS-3, first word and second. -/
theorem test_prbsGen :
    reads (exec (.prbsGen 32#6) { State.reset with prbs := seeded }) [.prbsOut, .prbsPos]
        = some [0x9F899A62#32, 32#32]
      ∧ (seeded.generate 32 |>.generate 32).out = 0x7E741C5B#32 := by decide +kernel

/-- V-PRBS-3 read from bit 32 after a skip of 32; a skip of 0 changes nothing. -/
theorem test_prbsSkip :
    reads (exec .prbsSkip { args State.reset 32#32 0 0 with prbs := seeded }) [.prbsPos, .prbsOut] = some [32#32, 0#32]
      ∧ ((seeded.skip 32).generate 32).out = 0x7E741C5B#32 ∧ seeded.skip 0 = seeded := by decide +kernel

/-- V-QAM-6. -/
theorem test_qamMap : reads (exec (.qamMap .qam16) (args State.reset 0x5#32 0 0)) [.mapI, .mapQ, .mapNorm]
    = some [0xFFFFFFFD#32, 1#32, 10#32] := by decide +kernel

/-- V-QAM-8 and V-QAM-10. -/
theorem test_qam_points :
    [0x15#8, 0x14#8].map (fun b => mapPoint .qam64 b.getLsbD) = [⟨-7, 3, 42⟩, ⟨7, 3, 42⟩]
      ∧ [0x0F#8, 0xF0#8, 0x3C#8].map (fun b => mapPoint .qam256 b.getLsbD)
          = [⟨-11, -11, 170⟩, ⟨1, 1, 170⟩, ⟨13, 13, 170⟩] := by decide +kernel

/-- V-QAM-15 with V-CFG-10's one block: a rectangle beyond the last block is RANGE and writes nothing. -/
theorem test_qamFill_range :
    (nextOf (exec (.qamFill .pdsch .qpsk) (args tiny 0x00020000#32 0x00010000#32 0))).map
      (fun t => (t.errCode, t.grid)) = some (0x11#8, tiny.grid) := by decide +kernel

/-- V-QAM-17: no block is success, and nothing is written or drawn. -/
theorem test_qamFill_empty :
    (nextOf (exec (.qamFill .pdsch .qpsk) (args tiny 0x00000000#32 0x00030007#32 0))).map
      (fun t => (t.err, t.grid, t.env.draws)) = some (false, tiny.grid, 0) := by decide +kernel

/-! ### Reference signals and OFDM -/

/-- V-RS-1, V-RS-4b, V-RS-6, and the second hand-computed triple of L1-6. -/
theorem test_pbch_seed :
    [pbchSeed 0 0 0, pbchSeed 0 4 1, pbchSeed 1007 63 1, pbchSeed 17 2 1] = [2112, 27456, 37163523, 72129] := by
  decide +kernel

/-- V-RS-9 and V-RS-9e, which wrap. -/
theorem test_pdsch_seed : [pdschSeed 500 3 5, pdschSeed 1007 255 15] = [2002781160, 58460126] := by decide +kernel

/-- V-RS-20: the literal 14 of the formula under twelve symbols a slot. -/
theorem test_rsCinit :
    reads (exec (.rsCinit .pdsch) (args (applied extendedConfig) 0 0x00000B27#32 0)) [.rsCinit]
      = some [73138176#32] := by decide +kernel

/-- V-RS-15: slot 10 of ten is RANGE, RS_CINIT and GRID unchanged; a zero mask writes RS_CINIT only (V-RS-14). -/
theorem test_rsGen :
    (nextOf (exec (.rsGen .pdsch) (args tiny 0x00010000#32 10#32 0))).map
        (fun t => (t.errCode, t.rs.cinit, t.grid)) = some (0x11#8, 0#31, tiny.grid)
      ∧ (nextOf (exec (.rsGen .raw) (args tiny 0x00010000#32 0 0x840#32))).map
        (fun t => (t.errCode, t.rs.cinit, t.grid)) = some (0#8, 0x840#31, tiny.grid) := by decide +kernel

/-- V-RS-10b: the points of seed 0x20000 at the even positions of one block. -/
theorem test_rs_points :
    ([0, 2, 4, 6, 8, 10].map fun p => rsPoint 0x20000#31 (rsIndex 0x555#12 0 0 p))
      = [⟨1, -1, 2⟩, ⟨1, 1, 2⟩, ⟨1, -1, 2⟩, ⟨-1, 1, 2⟩, ⟨1, -1, 2⟩, ⟨1, -1, 2⟩] := by
  simp only [rsPoint, ownGoldBit, test_seedWindows]
  decide +kernel

/-- V-OFDM-6: where symbols start. -/
theorem test_symbol_offsets :
    ([0, 1, 2, 7, 8, 13, 14, 139].map tinyConfig.derive.symbolOffset) = [0, 18, 35, 120, 138, 223, 240, 2383] := by
  decide +kernel

/-- V-OFDM-E1 and V-OFDM-E2. -/
theorem test_ofdm_range :
    (nextOf (exec (.ofdmSym 140#12) tiny)).map (fun t => (t.errCode, t.out)) = some (0x11#8, tiny.out)
      ∧ (nextOf (exec (.ofdmSlot 10#8) tiny)).map (fun t => (t.errCode, t.out)) = some (0x11#8, tiny.out) := by
  decide +kernel

/-- V-OFDM-E3 and V-OFDM-E4: extended CP before RANGE. -/
theorem test_ofdm_extended :
    ([Instr.ofdmFrame, .ofdmSym 4000#12].map fun i => (nextOf (exec i (applied extendedConfig))).map State.errCode)
      = [some 0x14#8, some 0x14#8] := by decide +kernel

/-! ### Errors, reset, hazards -/

/-- V-ERR-1 and V-OFDM-E5. -/
theorem test_errors :
    reads (step (pend State.reset 0x03000000#32)) [.status, .errCode] = some [0xC#32, 0x12#32]
      ∧ reads (step (pend State.reset 0x42000000#32)) [.status, .errCode] = some [0xC#32, 0x10#32] := by
  decide +kernel

/-- P5, both outcomes: the second NOP is accepted after the engine step and BUSY before it. -/
theorem test_two_commands :
    reads (Sys2Proof.core.run 4 (turns State.reset [issue .nop, .engine, issue .nop, .engine])) [.status, .errCode]
        = some [0x4#32, 0#32]
      ∧ reads (Sys2Proof.core.run 3 (turns State.reset [issue .nop, issue .nop, .engine])) [.status, .errCode]
        = some [0xC#32, 0x13#32] := by decide +kernel

/-- V-RST-2 and V-RST-3: a soft reset discards the pending command and leaves IRQ_EN 0. -/
theorem test_soft_reset :
    (nextOf (step (turns (pend tiny 0x42000000#32) [wr .ctrl 3#32]))).map (fun t => decide (t = State.reset))
      = some true := by decide +kernel

/-- V-HAZ-2 and V-HAZ-5. -/
theorem test_faults :
    (∃ t, step (turns State.reset [wr .arg0 6#32]) = .next t ∧ t.arg0 = 6#32)
      ∧ step (turns (pend State.reset 0x10000000#32) [wr .arg0 6#32]) = .fault .hazard
      ∧ step (turns State.reset [.host (.regRead 32 0x0CA#12)]) = .fault .busError := ⟨⟨_, rfl, rfl⟩, rfl, rfl⟩

/-- The fetch of the host's question: the word given is the one the next step runs. -/
theorem test_withFetchWord :
    reads (step (State.reset.withFetchWord 32 0x20000000)) [.mapI, .mapQ, .mapNorm, .status]
      = some [1#32, 1#32, 2#32, 0x4#32] := by decide +kernel

/-! ### Every statement's hypotheses are met: concrete states and operands, clause by clause -/

theorem test_met_DecodeEncode :
    (Instr.prbsGen 1#6).WellFormed = true ∧ (Instr.qamFill .pdsch .bpsk).WellFormed = true := by decide

theorem test_met_EncodeDecode : decode 0x11000020#32 = .command (.prbsGen 32#6) := by decide

theorem test_met_ReservedOpcodesRefused :
    decode 0x43000000#32 = .illegal .reservedOpcode ∧ decode 0x42000001#32 ≠ .illegal .reservedOpcode := by decide

theorem test_met_IllegalCommandReports :
    EngineMoves (turns (pend tiny 0x20000005#32) [.engine]) ∧ (pend tiny 0x20000005#32).pending = some 0x20000005#32
      ∧ decode 0x20000005#32 = .illegal .illegalField := ⟨.inr ⟨[], rfl⟩, rfl, by decide⟩

theorem test_met_StepRunsDecoded :
    EngineMoves (pend State.reset 0x11000001#32) ∧ decode 0x11000001#32 = .command (.prbsGen 1#6)
      ∧ ∃ u, exec (.prbsGen 1#6) (pend State.reset 0x11000001#32).popTurn = .next u :=
  ⟨.inl rfl, by decide, _, rfl⟩

theorem test_met_AcceptedCommandRunsNext :
    (let s := turns State.reset [issue .nop, .engine, rd .status, .engine]
     s.pending = none ∧ s.env.agenda = issue .nop :: .engine :: [rd .status, .engine]
       ∧ ∃ u, exec .nop { s.popTurn.popTurn with pending := some (encode .nop) } = .next u) :=
  ⟨rfl, rfl, _, rfl⟩

theorem test_met_IdlenessPreservesState : EngineMoves tiny ∧ tiny.pending = none := ⟨.inl rfl, rfl⟩

theorem test_met_CommandsNeverFault :
    ∀ turn ∈ (turns tiny [.engine, .powerOn, .engine]).env.agenda, ∀ a, turn ≠ .host a := by
  intro turn h a
  simp [turns] at h
  rcases h with rfl | rfl | rfl <;> simp

/-- A command, an illegal word and a soft reset, each after a poll of STATUS; the runs meet no fault. -/
theorem test_met_PendingCommandIsPerformed :
    (let s := turns (pend State.reset 0#32) [rd .status, .engine, issue .nop]
     s.pending = some 0#32 ∧ FaultFree (s.env.agenda.length + 1) s)
      ∧ (let s := turns (pend State.reset 0x03000000#32) [rd .status]
         s.pending = some 0x03000000#32 ∧ FaultFree (s.env.agenda.length + 1) s)
      ∧ (let s := turns (pend State.reset 0#32) [rd .status, wr .ctrl 1#32, .powerOn]
         s.pending = some 0#32 ∧ FaultFree (s.env.agenda.length + 1) s) :=
  ⟨⟨rfl, _, rfl⟩, ⟨rfl, _, rfl⟩, rfl, _, rfl⟩

theorem test_met_FirstErrorWins : State.reset.err = false ∧ (State.reset.raise .busy).err = true := ⟨rfl, rfl⟩

theorem test_met_StatusWriteAcknowledges :
    HostMoves (turns tiny [wr .status 0x8#32]) (.regWrite 32 0x008#12 0x8#32) := ⟨[], rfl⟩

theorem test_met_CmdWriteAcceptedOrBusy :
    HostMoves (turns tiny [issue .nop]) (.regWrite 32 0x010#12 0#32) ∧ tiny.pending = none
      ∧ HostMoves (turns (pend tiny 0#32) [issue .nop]) (.regWrite 32 0x010#12 0#32)
      ∧ (turns (pend tiny 0#32) [issue .nop]).pending = some 0#32 := ⟨⟨[], rfl⟩, rfl, ⟨[], rfl⟩, rfl⟩

theorem test_met_ResetRestoresResetState :
    (turns tiny [.powerOn]).env.agenda = .powerOn :: []
      ∧ (HostMoves (turns (pend tiny 0#32) [wr .ctrl 3#32]) (.regWrite 32 0x004#12 3#32) ∧ (3#32).getLsbD 0 = true)
      ∧ HostMoves (turns tiny [wr .ctrl 2#32]) (.regWrite 32 0x004#12 2#32) ∧ (2#32).getLsbD 0 = false :=
  ⟨rfl, ⟨⟨[], rfl⟩, by decide⟩, ⟨[], rfl⟩, by decide⟩

theorem test_met_MisalignedAccessFaults :
    HostMoves (turns tiny [.host (.regRead 16 0x008#12)]) (.regRead 16 0x008#12) ∧ (16 : Nat) ≠ 32
      ∧ HostMoves (turns tiny [.host (.regWrite 32 0xFFF#12 0#32)]) (.regWrite 32 0xFFF#12 0#32)
      ∧ (0xFFF#12).toNat % 4 ≠ 0 := ⟨⟨[], rfl⟩, by decide, ⟨[], rfl⟩, by decide⟩

/-- The first unlisted offset after the staging registers and the last of the window. -/
theorem test_met_UnlistedOffsetsReadZero :
    ∀ off ∈ [0x034#12, 0xFFC#12], off.toNat % 4 = 0 ∧ (∀ r : RegName, r.offset ≠ off)
      ∧ HostMoves (turns tiny [.host (.regRead 32 off)]) (.regRead 32 off)
      ∧ HostMoves (turns tiny [.host (.regWrite 32 off 1#32)]) (.regWrite 32 off 1#32) := by
  have free : ∀ off ∈ [0x034#12, 0xFFC#12], ∀ r ∈ allRegs, r.offset ≠ off := by decide +kernel
  intro off h
  refine ⟨?_, fun r => free off h r (mem_allRegs r), ⟨[], rfl⟩, ⟨[], rfl⟩⟩
  revert off
  decide

/-- The command a pending word decodes to is the one it decodes to: for the premises about a pending command. -/
theorem pending_is {s : State} {w : BitVec 32} {i : Instr} (hp : s.pending = some w) (hd : decode w = .command i)
    {P : Instr → Prop} (h : P i) : ∀ w' i', s.pending = some w' → decode w' = .command i' → P i' := by
  intro w' i' hp' hd'
  rw [hp] at hp'
  cases hp'
  rw [hd] at hd'
  cases hd'
  exact h

/-- CFG_NUM is in no set of OFDM_FRAME (V-HAZ-3). -/
theorem test_met_ReadsReturnCurrentValue :
    (let s := turns (pend tiny 0x42000000#32) [rd .cfgNum]
     HostMoves s (.regRead 32 0x020#12)
       ∧ ∀ w i, s.pending = some w → decode w = .command i → RegName.cfgNum ∉ (footprint i).writeRegs) :=
  ⟨⟨[], rfl⟩, pending_is (w := 0x42000000#32) (i := .ofdmFrame) rfl (by decide)
    (P := fun i => RegName.cfgNum ∉ (footprint i).writeRegs) (by decide)⟩

theorem test_met_HazardousReadIsAnyValue :
    (decode 0x10000000#32 = .command .prbsSeed ∧ RegName.prbsOut ∈ (footprint .prbsSeed).writeRegs
        ∧ HostMoves (turns (pend tiny 0x10000000#32) [rd .prbsOut]) (.regRead 32 RegName.prbsOut.offset))
      ∧ (decode 0x02000000#32 = .command .gridClear ∧ (footprint .gridClear).writesGrid = true
        ∧ (turns (pend tiny 0x02000000#32) [gr 11 139]).gridExists 11 139 = true
        ∧ HostMoves (turns (pend tiny 0x02000000#32) [gr 11 139]) (.gridRead 11 139))
      ∧ (decode 0x42000000#32 = .command .ofdmFrame ∧ (footprint .ofdmFrame).writesOut = true
        ∧ (turns (pend tiny 0x42000000#32) [outRd 2399]).outExists 2399 = true
        ∧ HostMoves (turns (pend tiny 0x42000000#32) [outRd 2399]) (.outRead 2399)) :=
  ⟨⟨by decide, by decide, [], rfl⟩, ⟨by decide, by decide, by decide +kernel, [], rfl⟩,
    by decide, by decide, by decide +kernel, [], rfl⟩

theorem test_met_HazardousWriteFaults :
    (decode 0x12000000#32 = .command .prbsSkip ∧ RegName.arg0 ∈ (footprint .prbsSkip).readRegs
        ∧ RegName.prbsX1 ∈ (footprint .prbsSkip).writeRegs
        ∧ HostMoves (turns (pend tiny 0x12000000#32) [wr .arg0 1#32]) (.regWrite 32 RegName.arg0.offset 1#32)
        ∧ HostMoves (turns (pend tiny 0x12000000#32) [wr .prbsX1 1#32]) (.regWrite 32 RegName.prbsX1.offset 1#32))
      ∧ (decode 0x42000000#32 = .command .ofdmFrame ∧ (footprint .ofdmFrame).readsGrid = true
        ∧ (turns (pend tiny 0x42000000#32) [gw 0 0 ⟨1⟩ 1#3]).gridExists 0 0 = true
        ∧ HostMoves (turns (pend tiny 0x42000000#32) [gw 0 0 ⟨1⟩ 1#3]) (.gridWrite 0 0 ⟨1⟩ Tag.pdsch.code))
      ∧ (decode 0x02000000#32 = .command .gridClear ∧ (footprint .gridClear).writesGrid = true
        ∧ (turns (pend tiny 0x02000000#32) [gw 11 139 ⟨1⟩ 0#3]).gridExists 11 139 = true
        ∧ HostMoves (turns (pend tiny 0x02000000#32) [gw 11 139 ⟨1⟩ 0#3]) (.gridWrite 11 139 ⟨1⟩ Tag.empty.code)) :=
  ⟨⟨by decide, by decide, by decide, ⟨[], rfl⟩, ⟨[], rfl⟩⟩, ⟨by decide, by decide, by decide +kernel, [], rfl⟩,
    by decide, by decide, by decide +kernel, [], rfl⟩

/-- V-CFG-W1: CFG_CELL keeps the low ten bits of 2000, while a command that does not use it is pending. -/
theorem test_met_PlainRegistersReadBack :
    (let s := turns (pend tiny 0x42000000#32) [wr .cfgCell 2000#32]
     HostMoves s (.regWrite 32 0x028#12 2000#32)
       ∧ (∀ w i, s.pending = some w → decode w = .command i →
           RegName.cfgCell ∉ (footprint i).readRegs ∧ RegName.cfgCell ∉ (footprint i).writeRegs)
       ∧ reads (step s) [.cfgCell] = some [976#32]) :=
  ⟨⟨[], rfl⟩, pending_is (w := 0x42000000#32) (i := .ofdmFrame) rfl (by decide)
    (P := fun i => RegName.cfgCell ∉ (footprint i).readRegs ∧ RegName.cfgCell ∉ (footprint i).writeRegs) (by decide),
    by decide +kernel⟩

theorem test_met_ReadOnlyRegistersIgnoreWrites :
    (let s := turns (pend tiny 0x02000000#32) [wr .id 1#32]
     HostMoves s (.regWrite 32 RegName.id.offset 1#32) ∧ s.writeHazard .id = false) :=
  ⟨⟨[], rfl⟩, by decide +kernel⟩

/-- The last element of GRID with the last tag code, while a command that does not use GRID is pending. -/
theorem test_met_GridPortWrite :
    (let s := turns (pend tiny 0x10000000#32) [gw 11 139 ⟨9⟩ 5#3]
     HostMoves s (.gridWrite 11 139 ⟨9⟩ 5#3) ∧ s.cfgValid = true ∧ 11 < s.eff.nSubcarriers.toNat
       ∧ 139 < s.eff.totalSymbols.toNat ∧ Tag.ofCode 5#3 = some .dmrs ∧ s.gridWriteHazard = false) :=
  ⟨⟨[], rfl⟩, rfl, by decide +kernel, by decide +kernel, rfl, by decide +kernel⟩

/-- Each clause at the first index that does not exist, idle and with a command pending that uses the memory. -/
theorem test_met_GridPortRefusals :
    (State.reset.pending ≠ some 0x01000000#32 ∧ State.reset.cfgValid = false
        ∧ (pend tiny 0x42000000#32).pending ≠ some 0x01000000#32)
      ∧ (tiny.eff.nSubcarriers.toNat ≤ 12 ∧ HostMoves (turns (pend tiny 0x02000000#32) [gr 12 0]) (.gridRead 12 0))
      ∧ (tiny.eff.totalSymbols.toNat ≤ 140
        ∧ HostMoves (turns (pend tiny 0x42000000#32) [gw 0 140 ⟨1⟩ 1#3]) (.gridWrite 0 140 ⟨1⟩ 1#3))
      ∧ HostMoves (turns (pend tiny 0x42000000#32) [gw 0 0 ⟨1⟩ 6#3]) (.gridWrite 0 0 ⟨1⟩ 6#3)
      ∧ (tiny.eff.totalSamples.toNat ≤ 2400
        ∧ HostMoves (turns (pend tiny 0x42000000#32) [outRd 2400]) (.outRead 2400))
      ∧ HostMoves (turns (pend tiny 0x01000000#32) [.host (.outWrite 0 ⟨1⟩)]) (.outWrite 0 ⟨1⟩) :=
  ⟨⟨by decide, rfl, by decide⟩, ⟨by decide +kernel, [], rfl⟩, ⟨by decide +kernel, [], rfl⟩, ⟨[], rfl⟩,
    ⟨by decide +kernel, [], rfl⟩, ⟨[], rfl⟩⟩

/-- The last element of GRID while OFDM_FRAME is pending, the last of OUT while GRID_CLEAR is. -/
theorem test_met_MemoryPortReads :
    (let s := turns (pend tiny 0x42000000#32) [gr 11 139]
     s.cfgValid = true ∧ HostMoves s (.gridRead 11 139) ∧ 11 < s.eff.nSubcarriers.toNat
       ∧ 139 < s.eff.totalSymbols.toNat
       ∧ ∀ w i, s.pending = some w → decode w = .command i → (footprint i).writesGrid = false)
      ∧ (let s := turns (pend tiny 0x02000000#32) [outRd 2399]
         s.cfgValid = true ∧ HostMoves s (.outRead 2399) ∧ 2399 < s.eff.totalSamples.toNat
           ∧ ∀ w i, s.pending = some w → decode w = .command i → (footprint i).writesOut = false) :=
  ⟨⟨rfl, ⟨[], rfl⟩, by decide +kernel, by decide +kernel,
      pending_is (w := 0x42000000#32) (i := .ofdmFrame) rfl (by decide)
        (P := fun i => (footprint i).writesGrid = false) rfl⟩,
    rfl, ⟨[], rfl⟩, by decide +kernel, pending_is (w := 0x02000000#32) (i := .gridClear) rfl (by decide)
      (P := fun i => (footprint i).writesOut = false) rfl⟩

/-- A command that writes neither memory, and a register and a memory another writes nothing of. -/
theorem test_met_CommandFootprints :
    (∃ t, exec .prbsSkip tiny = .next t) ∧ RegName.arg0 ∉ (footprint .prbsSkip).writeRegs
      ∧ (footprint .prbsSkip).writesGrid = false ∧ (footprint .gridClear).writesOut = false :=
  ⟨⟨_, rfl⟩, by decide, rfl, rfl⟩

/-- V-CFG-10 passes every check under every limits of 00_scope.md R9. -/
theorem test_accepted_tiny : tinyConfig.Accepted := by
  have hn := nrbMax_bounds
  have hf := nfftMax_bounds
  have h1 : ¬ (tinyConfig.nrb = 0 ∨ Config.limits.nrbMax < tinyConfig.nrb.toNat) := by
    show ¬ (_ ∨ Config.nrbMax < 1)
    exact fun h => h.elim (by decide) (by omega)
  have h2 : ¬ ((tinyConfig.nfft ≠ 0 ∧ isPow2 tinyConfig.nfft.toNat = false)
      ∨ Config.limits.nfftMax < tinyConfig.nFftOf) := by
    rw [show tinyConfig.nFftOf = 16 from by decide +kernel]
    show ¬ (_ ∨ Config.nfftMax < 16)
    exact fun h => h.elim (by decide) (by omega)
  unfold StagedConfig.Accepted
  rw [firstError_eq, if_neg (by decide), if_neg (by decide), if_neg (by decide), if_neg (by decide), if_neg h1,
    if_neg (by decide +kernel), if_neg (by decide +kernel), if_neg h2, if_neg (by decide +kernel)]

/-- The configuration of `tiny` is one CFG_APPLY latched. -/
theorem test_latched_tiny : EffectiveLatched tiny := .inr ⟨tinyConfig, test_accepted_tiny, rfl⟩

theorem test_met_CfgApplySucceeds :
    (let c := tinyConfig
     (c.cp = 0 ∧ c.cell.toNat ≤ 1007 ∧ c.mu.toNat ≤ 4 ∧ (c.cp = 1 → c.mu.toNat = 2) ∧ 1 ≤ c.nrb.toNat)
       ∧ c.nrb.toNat ≤ Config.nrbMax ∧ c.fs.toNat ≠ 0 ∧ c.fs.toNat % (15000 * 2 ^ c.mu.toNat) = 0
       ∧ c.nfft.toNat = 0 ∧ nextPow2 (c.fs.toNat / (15000 * 2 ^ c.mu.toNat)) ≤ Config.nfftMax
       ∧ 12 * c.nrb.toNat ≤ c.fs.toNat / (15000 * 2 ^ c.mu.toNat)) := by
  refine ⟨by decide, nrbMax_bounds.1, by decide, by decide +kernel, by decide, ?_, by decide +kernel⟩
  rw [show nextPow2 (tinyConfig.fs.toNat / (15000 * 2 ^ tinyConfig.mu.toNat)) = 16 from by decide +kernel]
  exact nfftMax_bounds.1

/-- The reset values have no resource block: check 5 fails under every limits. -/
theorem test_met_CfgApplyFails : State.reset.cfg.firstError Config.limits = some .cfgNrbRange := by
  rw [firstError_eq, if_neg (by decide), if_neg (by decide), if_neg (by decide), if_neg (by decide),
    if_pos (.inl rfl)]

/-- A surplus of 3 (V-CFG-3), a deficit of 6 (V-CFG-13) and no difference (V-CFG-1), as R151 has d. -/
theorem test_met_CpReconciliation :
    (cpExcess (15 * 384) 384 (cpRounded 1 384), cpExcess (15 * 192) 192 (cpRounded 0 192),
      cpExcess (15 * 1024) 1024 (cpRounded 0 1024)) = (3, -6, 0) := by decide +kernel

theorem test_met_RoundHalfEvenNearest : 0 < 2048 ∧ roundHalfEven (144 * 192) 2048 = 14
    ∧ roundHalfEven (144 * 320) 2048 = 22 := by decide +kernel

theorem test_met_NextPow2Least : 17 ≤ 2 ^ 5 ∧ nextPow2 17 = 32 ∧ nextPow2 16 = 16 := by decide +kernel

theorem test_met_NopChangesNothing :
    EngineMoves (pend tiny 0#32) ∧ (pend tiny 0#32).pending = some 0x00000000#32 := ⟨.inl rfl, rfl⟩

theorem test_met_GridClearEmptiesGrid : tiny.cfgValid = true ∧ tiny.gridAt 6 0 ≠ RE.blank := by decide +kernel

/-- Configured under both CP types. -/
theorem test_met_RsCinitSeeds : tiny.cfgValid = true ∧ (applied extendedConfig).cfgValid = true := ⟨rfl, rfl⟩

/-- Every premise of the chain of checks, each at its last legal value; `test_cfg_errors_first` and
`test_cfg_errors_last` meet the failing clauses one by one. -/
theorem test_met_CfgCheckOrder :
    (let c := staged 1 0 32 11520000 4096 1007
     c.cp.toNat < 2 ∧ c.cell.toNat = 1007 ∧ c.mu.toNat ≤ 4 ∧ (c.cp = 1 → c.mu.toNat = 2) ∧ c.nrb ≠ 0
       ∧ c.fs.toNat % (15000 * 2 ^ c.mu.toNat) = 0 ∧ c.fs.toNat / (15000 * 2 ^ c.mu.toNat) = 12 * c.nrb.toNat
       ∧ c.nfft.toNat = 2 ^ 12 ∧ errorOf c = none) := by decide +kernel

theorem test_met_UnconfiguredCommandsReport : State.reset.cfgValid = false := rfl

/-- Windows that stand at `m` of the stream of `c`, bit by bit. -/
def windowsAt (c : BitVec 31) (m : Nat) : Windows :=
  ⟨BitVec.ofFnLE fun i : Fin 31 => goldX1 (m + i.val), BitVec.ofFnLE fun i : Fin 31 => goldX2 c (m + i.val)⟩

theorem test_met_WindowStep :
    (∀ i, i < 31 → (⟨1#31, 0x20000#31⟩ : Windows).x1.getLsbD i = goldX1 (0 + i))
      ∧ ∀ i, i < 31 → (⟨1#31, 0x20000#31⟩ : Windows).x2.getLsbD i = goldX2 0x20000#31 (0 + i) := by decide +kernel

/-- PRBS registers that stand at bit 5 of the stream of seed 0x20000; CNT at both ends. -/
theorem test_met_PrbsGenEmitsStream :
    StreamAt 0x20000#31 5
        ⟨0x20000#31, (windowsAt 0x20000#31 (goldOffset + 5)).x1, (windowsAt 0x20000#31 (goldOffset + 5)).x2, 5#32, 0#32⟩
      ∧ (1 ≤ (1#6).toNat ∧ (32#6).toNat ≤ 32) := by
  refine ⟨⟨fun i h => ?_, fun i h => ?_, rfl⟩, by decide⟩ <;> simp [windowsAt, h]

/-- Registers on the stream with ARG0 0 and with the largest ARG0, and the zero windows of reset. -/
theorem test_met_PrbsSkipAdvancesStream :
    (let p : PrbsRegs := ⟨0#31, (windowsAt 1#31 goldOffset).x1, (windowsAt 1#31 goldOffset).x2, 0#32, 0#32⟩
     StreamAt 1#31 0 { args tiny 0 0 0 with prbs := p }.prbs ∧ (args tiny 0 0 0).arg0 = 0
       ∧ StreamAt 1#31 0 { args tiny 0xFFFFFFFF#32 0 0 with prbs := p }.prbs
       ∧ (args State.reset 7#32 0 0).prbs.x1 = 0 ∧ (args State.reset 7#32 0 0).prbs.x2 = 0) := by
  refine ⟨⟨fun i h => ?_, fun i h => ?_, rfl⟩, rfl, ⟨fun i h => ?_, fun i h => ?_, rfl⟩, rfl, rfl⟩ <;> simp [windowsAt, h]

theorem test_met_PrbsGenBeforeSeed : State.reset.prbs.x1 = 0 ∧ State.reset.prbs.x2 = 0 := ⟨rfl, rfl⟩

theorem test_met_QamPointsOddAndBounded :
    ∀ i, i < bitsPerSymbol .qpsk → (0xFD#8).getLsbD i = (0x01#8).getLsbD i := by decide

/-- The whole grid's last column. -/
theorem test_met_QamFillWritesRectangle :
    (let s := args tiny 0x00010000#32 0x0001008B#32 0
     s.cfgValid = true ∧ s.argRb0 + s.argNrbf = s.eff.nrb.toNat ∧ s.argL0 + s.argNl = s.eff.totalSymbols.toNat
       ∧ s.argNrbf = 1 ∧ s.argNl = 1) := by decide +kernel

/-- One block and one column too many; a slot and a symbol of a slot too many. -/
theorem test_met_TargetsOutsideGridReport :
    (args tiny 0x00010001#32 0 0).eff.nrb.toNat < (args tiny 0x00010001#32 0 0).argRb0 + (args tiny 0x00010001#32 0 0).argNrbf
      ∧ tiny.eff.totalSymbols.toNat < (args tiny 0 0x0001008C#32 0).argL0 + (args tiny 0 0x0001008C#32 0).argNl
      ∧ tiny.eff.totalSlots.toNat ≤ (args tiny 0 0x0000000A#32 0).argSlot
      ∧ tiny.eff.symsPerSlot.toNat ≤ (args tiny 0 0x00000E00#32 0).argSymb := by decide +kernel

/-- The last symbol of the last slot, a full mask. -/
theorem test_met_RsGenWritesMaskedPositions :
    (let s := { args tiny 0x00010000#32 0x00000D09#32 0 with rs := ⟨0xFFF#12, 7#16, 0#31⟩ }
     s.cfgValid = true ∧ s.argRb0 + s.argNrbf = s.eff.nrb.toNat ∧ s.argSlot + 1 = s.eff.totalSlots.toNat
       ∧ s.argSymb + 1 = s.eff.symsPerSlot.toNat ∧ s.rs.mask.getLsbD 11 = true) := by decide +kernel

theorem test_met_OfdmSymbolWritesSpan :
    tiny.cfgValid = true ∧ tiny.eff.cp = 0 ∧ (139#12).toNat < tiny.eff.totalSymbols.toNat := by decide +kernel

theorem test_met_CyclicPrefixCopiesTail :
    EffectiveLatched tiny ∧ 1 < tiny.eff.cpLenAt ((7#12).toNat % 14) ∧ ∃ t, exec (.ofdmSym 7#12) tiny = .next t := by
  refine ⟨test_latched_tiny, by decide +kernel, ?_⟩
  simp only [exec, execOfdmSym, State.settle_answers]

theorem test_met_SymbolSpansTileFrame : tinyConfig.Accepted ∧ tinyConfig.cp = 0 := ⟨test_accepted_tiny, rfl⟩

theorem test_met_OfdmSlotWritesSlot :
    EffectiveLatched tiny ∧ tiny.eff.cp = 0 ∧ (9#8).toNat < tiny.eff.totalSlots.toNat
      ∧ 17 < tiny.eff.symbolSamples 0 := ⟨test_latched_tiny, by decide +kernel⟩

theorem test_met_OfdmFrameWritesFrame :
    EffectiveLatched tiny ∧ tiny.eff.cp = 0 ∧ 139 < tiny.eff.totalSymbols.toNat
      ∧ 16 < tiny.eff.symbolSamples (139 % 14) ∧ 2399 < tiny.eff.totalSamples.toNat :=
  ⟨test_latched_tiny, by decide +kernel⟩

theorem test_met_OfdmErrorPriority :
    (applied extendedConfig).eff.cp ≠ 0 ∧ tiny.eff.totalSymbols.toNat ≤ (140#12).toNat
      ∧ tiny.eff.totalSlots.toNat ≤ (10#8).toNat := by decide +kernel

/-- V-OFDM-2: one element of column 0 at subcarrier 6 of twelve. -/
theorem test_met_IdealTransformOfDc :
    (tinyConfig.Accepted ∧ tinyConfig.cp = 0) ∧ 0 < tinyConfig.derive.totalSymbols.toNat
      ∧ (∀ i, i < tinyConfig.derive.nSubcarriers.toNat →
          (Memory.read RE.blank tiny.grid (gridKey i 0)).val
            = if i = tinyConfig.derive.nSubcarriers.toNat / 2 then ⟨5⟩ else Sample.zero)
      ∧ 17 < tinyConfig.derive.symbolSamples (0 % 14) :=
  ⟨⟨test_accepted_tiny, rfl⟩, by decide +kernel⟩

/-- Two grids that differ in a tag. -/
theorem test_met_TagsDoNotAffectWaveform :
    (∀ k l, (Memory.read RE.blank [(6, (⟨⟨5⟩, .ssb⟩ : RE))] (gridKey k l)).val = (tiny.gridAt k l).val)
      ∧ (∃ t, exec .ofdmFrame tiny = .next t)
      ∧ ∃ t, exec .ofdmFrame { tiny with grid := [(6, ⟨⟨5⟩, .ssb⟩)] } = .next t := by
  refine ⟨fun k l => ?_, by simp only [exec, execOfdmFrame, State.settle_answers],
    by simp only [exec, execOfdmFrame, State.settle_answers]⟩
  simp only [State.gridAt, tiny, Memory.read]
  split <;> rfl

theorem test_met_CanonicalMemoriesKept : MemoriesCanonical tiny ∧ ∃ t, step tiny = .next t :=
  ⟨by unfold MemoriesCanonical tiny; decide, _, rfl⟩

/-- `tiny` is sound, and a step from it answers. -/
theorem test_met_SoundKept : Sound tiny ∧ ∃ t, step tiny = .next t :=
  ⟨⟨by unfold MemoriesCanonical tiny; decide, .inl ⟨rfl, rfl⟩, test_latched_tiny,
    ⟨fun h => absurd h (by decide), by decide +kernel, by decide +kernel⟩⟩, _, rfl⟩

end Sys2Proof.Tests
end

section
/-! PROOFS. The integer arithmetic of 00_scope.md R11: `roundHalfEven` and `nextPow2`. -/

namespace Sys2Proof.Machine

/-- The three branches of `roundHalfEven`, by twice the remainder against the divisor (00_scope.md R11). -/
theorem roundHalfEven_cases (a b : Nat) :
    (2 * (a % b) < b ∧ roundHalfEven a b = a / b)
      ∨ (b < 2 * (a % b) ∧ roundHalfEven a b = a / b + 1)
      ∨ (2 * (a % b) = b ∧ roundHalfEven a b = a / b + a / b % 2) := by
  unfold roundHalfEven
  rcases Nat.lt_trichotomy (2 * (a % b)) b with below | tie | above
  · exact .inl ⟨below, if_pos below⟩
  · exact .inr (.inr ⟨tie, by simp [tie]⟩)
  · exact .inr (.inl ⟨above, by simp [above, above.not_gt]⟩)

/-- `nextPow2` is two to the ceiling logarithm: its exponent is at most `k` exactly when `n ≤ 2 ^ k`. -/
theorem nextPow2_eq_two_pow_clog (n : Nat) : nextPow2 n = 2 ^ Nat.clog 2 n := by
  unfold nextPow2
  split
  next small => rw [Nat.clog_of_right_le_one small, Nat.pow_zero]
  next large =>
    have exponent : Nat.log2 (n - 1) + 1 = Nat.clog 2 n := eq_of_forall_ge_iff fun k =>
      calc Nat.log2 (n - 1) + 1 ≤ k
          _ ↔ n - 1 < 2 ^ k := Nat.log2_lt (by omega)
          _ ↔ n ≤ 2 ^ k := by omega
          _ ↔ Nat.clog 2 n ≤ k := (Nat.clog_le_iff_le_pow Nat.one_lt_two).symm
    rw [exponent]

end Sys2Proof.Machine

open Sys2Proof.Machine

/-- Settles O34, per branch of the rounding: with q = a / b and r = a % b, the distance from the result is r below the
middle and b - r above it; on a tie q + q % 2 is the even neighbour. -/
theorem roundHalfEvenNearest : Obligations.RoundHalfEvenNearest := by
  intro a b hb
  have division : 2 * a = 2 * b * (a / b) + 2 * (a % b) := by
    rw [Nat.mul_assoc, ← Nat.mul_add, Nat.div_add_mod]
  have successor : 2 * b * (a / b + 1) = 2 * b * (a / b) + 2 * b := Nat.mul_succ _ _
  obtain ⟨below, result⟩ | ⟨above, result⟩ | ⟨tie, result⟩ := roundHalfEven_cases a b
  · rw [result]; omega
  · have remainder : a % b < b := Nat.mod_lt a hb
    rw [result]; omega
  · rcases Nat.mod_two_eq_zero_or_one (a / b) with even | odd
    · rw [result, even, Nat.add_zero]; omega
    · rw [result, odd]; omega

/-- Settles O35, from the ceiling logarithm: `2 ^ Nat.clog 2 n` reaches `n`, and no smaller exponent does. -/
theorem nextPow2Least : Obligations.NextPow2Least := by
  intro n
  rw [nextPow2_eq_two_pow_clog]
  exact ⟨⟨_, rfl⟩, Nat.le_pow_clog Nat.one_lt_two n,
    fun k fits => Nat.pow_le_pow_right Nat.two_pos (Nat.clog_le_of_le_pow fits)⟩

end

section
/-! PROOFS. What the latched parameters of a configuration add up to (40_config.md R144 to R152): the reconciled CP
lengths, and the equations between the derived registers under which every symbol lies in OUT. -/

namespace Sys2Proof.Machine

/-! ### The reconciled CP lengths -/

/-- The symbols of a slot, useful samples and CP, in sum. -/
theorem sum_map_const_add (n : Int) (cp : List Int) : (cp.map fun c => n + c).sum = cp.length * n + cp.sum := by
  rw [List.sum_map_add, List.map_const', List.sum_replicate, nsmul_eq_mul, List.map_id']

theorem cpExcess_eq (slotSamples nUseful : Nat) (cp : List Int) :
    cpExcess slotSamples nUseful cp = slotSamples - (cp.length * nUseful + cp.sum) := by
  rw [cpExcess, sum_map_const_add]

/-- Reconciliation adds a surplus in the order ADD, or takes a deficit in the order REM (40_config.md R151). -/
theorem reconcile_cases (mu n slotSamples : Nat) :
    (0 ≤ cpExcess slotSamples n (cpRounded mu n) ∧ reconcile mu n slotSamples
        = roundRobin (addOrder mu) 1 (cpExcess slotSamples n (cpRounded mu n)).toNat (cpRounded mu n))
      ∨ (cpExcess slotSamples n (cpRounded mu n) < 0 ∧ reconcile mu n slotSamples
        = roundRobin (removeOrder mu) (-1) (-cpExcess slotSamples n (cpRounded mu n)).toNat (cpRounded mu n)) := by
  rcases le_or_gt 0 (cpExcess slotSamples n (cpRounded mu n)) with surplus | deficit
  · exact .inl ⟨surplus, if_pos surplus⟩
  · exact .inr ⟨deficit, if_neg deficit.not_ge⟩

theorem reconcile_length (mu n slotSamples : Nat) : (reconcile mu n slotSamples).length = 14 := by
  rcases reconcile_cases mu n slotSamples with ⟨-, result⟩ | ⟨-, result⟩ <;>
    rw [result, roundRobin_length, cpRounded_length]

/-- Reconciliation makes up exactly the difference of the slot (40_config.md R151). -/
theorem reconcile_sum (mu n slotSamples : Nat) : (reconcile mu n slotSamples).sum = slotSamples - 14 * n := by
  obtain ⟨adds, removes⟩ := orders_in_slot mu
  have excess := cpExcess_eq slotSamples n (cpRounded mu n)
  rw [cpRounded_length] at excess
  rcases reconcile_cases mu n slotSamples with ⟨surplus, result⟩ | ⟨deficit, result⟩
  · rw [result, roundRobin_sum _ _ _ _ (cpRounded_length ..) adds]
    omega
  · rw [result, roundRobin_sum _ _ _ _ (cpRounded_length ..) removes]
    omega

theorem mem_cpRounded {mu n : Nat} {c : Int} (h : c ∈ cpRounded mu n) : c = cpLongOf n ∨ c = cpShortOf n := by
  obtain ⟨i, -, rfl⟩ := List.mem_map.1 h
  split
  · exact .inl rfl
  · exact .inr rfl

/-- Two symbols of a slot are long under numerology 0, one under any other (40_config.md R148). -/
theorem cpRounded_sum (mu n : Nat) :
    (cpRounded mu n).sum = if mu = 0 then 2 * (cpLongOf n : Int) + 12 * cpShortOf n
      else cpLongOf n + 13 * cpShortOf n := by
  unfold cpRounded longSymbols
  split <;> simp [List.range_succ] <;> ring

/-- The two rounded lengths are within one half of 160·n/2048 and 144·n/2048 (00_scope.md R11). -/
theorem rounded_bounds (n : Nat) :
    320 * n ≤ 4096 * cpLongOf n + 2048 ∧ 4096 * cpLongOf n ≤ 320 * n + 2048
      ∧ 288 * n ≤ 4096 * cpShortOf n + 2048 ∧ 4096 * cpShortOf n ≤ 288 * n + 2048 := by
  obtain ⟨longLow, longHigh, -⟩ := roundHalfEvenNearest (160 * n) 2048 (by omega)
  obtain ⟨shortLow, shortHigh, -⟩ := roundHalfEvenNearest (144 * n) 2048 (by omega)
  unfold cpLongOf cpShortOf
  omega

/-- A deficit is at most seven samples, one half for each symbol, and arises only when every rounded length is
positive. -/
theorem deficit_le_seven (mu n : Nat) (deficit : cpExcess (15 * n) n (cpRounded mu n) < 0) :
    -cpExcess (15 * n) n (cpRounded mu n) ≤ 7 ∧ ∀ c ∈ cpRounded mu n, 1 ≤ c := by
  have bounds := rounded_bounds n
  have sum := cpRounded_sum mu n
  rw [cpExcess_eq, cpRounded_length] at *
  have short : cpShortOf n ≠ 0 := by
    intro zero
    have few : cpLongOf n = 0 ∨ cpLongOf n = 1 := by omega
    split at sum <;> omega
  have long : cpLongOf n ≠ 0 := by omega
  refine ⟨by split at sum <;> omega, fun c hc => ?_⟩
  rcases mem_cpRounded hc with rfl | rfl <;> omega

/-- The first seven turns of REM name seven different symbols. -/
theorem removeOrder_once (mu : Nat) {turns i : Nat} (hturns : turns ≤ 7) (hi : i < 14) :
    ((List.range turns).countP fun t => (removeOrder mu).getD (t % 14) 0 == i) ≤ 1 := by
  have once : ∀ m < 8, ∀ i < 14,
      ((List.range m).countP fun t => (removeOrder mu).getD (t % 14) 0 == i) ≤ 1 := by
    unfold removeOrder shortSymbols longSymbols
    split <;> decide
  exact once turns (by omega) i hi

/-- No CP length is negative: a deficit takes at most one sample of each symbol, and each symbol has one. -/
theorem reconcile_nonneg (mu n : Nat) : ∀ c ∈ reconcile mu n (15 * n), 0 ≤ c := by
  intro c hc
  obtain ⟨i, hi, rfl⟩ := List.mem_iff_getElem.1 hc
  have inSlot : i < 14 := by rwa [reconcile_length] at hi
  have inRounded : i < (cpRounded mu n).length := by rwa [cpRounded_length]
  have entry : (cpRounded mu n).getD i 0 ∈ cpRounded mu n := by
    rw [List.getD_eq_getElem _ _ inRounded]; exact List.getElem_mem inRounded
  rw [← List.getD_eq_getElem _ 0 hi]
  rcases reconcile_cases mu n (15 * n) with ⟨-, result⟩ | ⟨deficit, result⟩
  · rw [result, roundRobin_getD _ _ _ _ _ inRounded]
    rcases mem_cpRounded entry with rounded | rounded <;> rw [rounded] <;> omega
  · obtain ⟨small, positive⟩ := deficit_le_seven mu n deficit
    have count := removeOrder_once mu (turns := (-cpExcess (15 * n) n (cpRounded mu n)).toNat) (by omega) inSlot
    have atLeastOne := positive _ entry
    rw [result, roundRobin_getD _ _ _ _ _ inRounded]
    omega

/-! ### The derived registers -/

/-- A configuration CFG_APPLY accepts has one of five numerologies and a sample rate that is a multiple of the
subcarrier spacing (40_config.md R141). -/
theorem StagedConfig.Accepted.mu_fs {c : StagedConfig} (h : c.Accepted) :
    c.mu.toNat ≤ 4 ∧ c.fs.toNat % c.deltaF = 0 := by
  unfold StagedConfig.Accepted at h
  rw [firstError_eq] at h
  split_ifs at h with hcp hcell hmu hmix hnrb hfs
  exact ⟨by omega, by_contra fun hne => hfs (.inr hne)⟩

/-- The sample rate is the subcarrier spacing times the useful samples (40_config.md R144). -/
theorem StagedConfig.Accepted.fs_eq {c : StagedConfig} (h : c.Accepted) :
    c.fs.toNat = c.nUsefulOf * (15 * (1000 * 2 ^ c.mu.toNat)) := by
  have divides := Nat.div_add_mod' c.fs.toNat c.deltaF
  rw [h.mu_fs.2, Nat.add_zero, StagedConfig.deltaF] at divides
  rw [← divides, StagedConfig.nUsefulOf, StagedConfig.deltaF]
  ring_nf

/-- A slot of normal CP has fifteen times the useful samples (40_config.md R150). -/
theorem StagedConfig.Accepted.slotSamples_eq {c : StagedConfig} (h : c.Accepted) :
    c.slotSamplesOf = 15 * c.nUsefulOf := by
  have hfs : c.fs.toNat = (1000 * 2 ^ c.mu.toNat) * (15 * c.nUsefulOf) := by rw [h.fs_eq]; ring
  rw [StagedConfig.slotSamplesOf, hfs, Nat.mul_div_cancel_left _ (by positivity)]

theorem StagedConfig.nUsefulOf_lt (c : StagedConfig) : c.nUsefulOf < 2 ^ 32 :=
  (Nat.div_le_self _ _).trans_lt c.fs.isLt

theorem StagedConfig.slotSamplesOf_lt (c : StagedConfig) : c.slotSamplesOf < 2 ^ 32 :=
  (Nat.div_le_self _ _).trans_lt c.fs.isLt

theorem StagedConfig.sps_le (c : StagedConfig) : c.sps ≤ 14 := by
  unfold StagedConfig.sps
  split <;> omega

/-- Numerology 4 has the most slots (40_config.md R150). -/
theorem StagedConfig.Accepted.totalSlotsOf_le {c : StagedConfig} (h : c.Accepted) : c.totalSlotsOf ≤ 160 := by
  have : 2 ^ c.mu.toNat ≤ 2 ^ 4 := Nat.pow_le_pow_right (by omega) h.mu_fs.1
  unfold StagedConfig.totalSlotsOf
  omega

theorem StagedConfig.ifNormal_eq {c : StagedConfig} (normal : c.cp = 0) (n : Nat) : c.ifNormal n = n := if_pos normal

/-! No derived register is truncated: each is as wide as its largest value (10_state.md R43). -/

theorem StagedConfig.derive_nUseful (c : StagedConfig) : c.derive.nUseful.toNat = c.nUsefulOf :=
  Nat.mod_eq_of_lt c.nUsefulOf_lt

theorem StagedConfig.derive_nSubcarriers (c : StagedConfig) : c.derive.nSubcarriers.toNat = 12 * c.nrb.toNat :=
  Nat.mod_eq_of_lt (by have := c.nrb.isLt; omega)

theorem StagedConfig.derive_symsPerSlot (c : StagedConfig) : c.derive.symsPerSlot.toNat = c.sps :=
  Nat.mod_eq_of_lt (by have := c.sps_le; omega)

theorem StagedConfig.Accepted.derive_totalSlots {c : StagedConfig} (h : c.Accepted) :
    c.derive.totalSlots.toNat = c.totalSlotsOf :=
  Nat.mod_eq_of_lt (by have := h.totalSlotsOf_le; omega)

theorem StagedConfig.Accepted.derive_totalSymbols {c : StagedConfig} (h : c.Accepted) :
    c.derive.totalSymbols.toNat = c.sps * c.totalSlotsOf :=
  Nat.mod_eq_of_lt ((Nat.mul_le_mul c.sps_le h.totalSlotsOf_le).trans_lt (by decide))

theorem StagedConfig.derive_slotSamples {c : StagedConfig} (normal : c.cp = 0) :
    c.derive.slotSamples.toNat = c.slotSamplesOf := by
  rw [← StagedConfig.ifNormal_eq normal c.slotSamplesOf]
  exact Nat.mod_eq_of_lt (by rw [StagedConfig.ifNormal_eq normal]; exact c.slotSamplesOf_lt)

/-- A frame has a hundredth of the samples of a second. -/
theorem StagedConfig.Accepted.derive_totalSamples {c : StagedConfig} (h : c.Accepted) (normal : c.cp = 0) :
    c.derive.totalSamples.toNat = c.totalSlotsOf * c.slotSamplesOf := by
  have frame : c.totalSlotsOf * c.slotSamplesOf * 100 = c.fs.toNat := by
    rw [h.slotSamples_eq, h.fs_eq, StagedConfig.totalSlotsOf]
    ring
  have hfs : c.fs.toNat < 2 ^ 32 := c.fs.isLt
  rw [← StagedConfig.ifNormal_eq normal (c.totalSlotsOf * c.slotSamplesOf)]
  exact Nat.mod_eq_of_lt (by rw [StagedConfig.ifNormal_eq normal]; omega)

/-- The latched CP lengths of normal CP are the reconciled ones: none is negative and none is truncated. -/
theorem StagedConfig.derive_cpLenAt {c : StagedConfig} (h : c.Accepted) (normal : c.cp = 0) (i : Nat) :
    (c.derive.cpLenAt i : Int) = (reconcile c.mu.toNat c.nUsefulOf (15 * c.nUsefulOf)).getD i 0 := by
  have latched : c.derive.cpLen
      = (reconcile c.mu.toNat c.nUsefulOf (15 * c.nUsefulOf)).map fun x => BitVec.ofInt 32 x := by
    rw [← h.slotSamples_eq]
    exact if_pos normal
  have nonneg := reconcile_nonneg c.mu.toNat c.nUsefulOf
  have sum := reconcile_sum c.mu.toNat c.nUsefulOf (15 * c.nUsefulOf)
  unfold EffectiveConfig.cpLenAt
  rw [latched]
  generalize reconcile c.mu.toNat c.nUsefulOf (15 * c.nUsefulOf) = cp at *
  by_cases hi : i < cp.length
  · have low := nonneg _ (List.getElem_mem hi)
    have high := List.single_le_sum nonneg _ (List.getElem_mem hi)
    have small := c.nUsefulOf_lt
    rw [List.getD_eq_getElem _ _ (by simpa using hi), List.getD_eq_getElem _ _ hi, List.getElem_map,
      BitVec.toNat_ofInt]
    omega
  · rw [List.getD_eq_default _ _ (by simpa using hi), List.getD_eq_default _ _ (by simpa using hi)]
    rfl

/-- A list is its entries in order. -/
theorem sum_range_getD (l : List Int) : ((List.range l.length).map fun i => l.getD i 0).sum = l.sum := by
  congr 1
  refine List.ext_getElem (by simp) fun i hi hi' => ?_
  rw [List.getElem_map, List.getElem_range, List.getD_eq_getElem]

/-- The equations between derived registers that place every symbol in GRID and OUT; normal CP alone has samples. -/
structure EffectiveConfig.Tiled (e : EffectiveConfig) : Prop where
  /-- Twelve subcarriers to a resource block (40_config.md R142). -/
  subcarriers : e.nSubcarriers.toNat = 12 * e.nrb.toNat
  /-- The frame's symbols are its slots' (40_config.md R150). -/
  symbols : e.totalSymbols.toNat = e.totalSlots.toNat * e.symsPerSlot.toNat
  /-- The frame's samples are its slots' (40_config.md R150). -/
  samples : e.cp = 0 → e.totalSamples.toNat = e.totalSlots.toNat * e.slotSamples.toNat
  /-- A slot's samples are its symbols' (40_config.md R151). -/
  slot : e.cp = 0 → ((List.range e.symsPerSlot.toNat).map e.symbolSamples).sum = e.slotSamples.toNat

theorem EffectiveConfig.zero_tiled : EffectiveConfig.zero.Tiled := ⟨rfl, rfl, fun _ => rfl, fun _ => rfl⟩

/-- Fourteen latched lengths and fourteen times the useful samples make one slot. -/
theorem StagedConfig.derive_slot_sum {c : StagedConfig} (h : c.Accepted) (normal : c.cp = 0) :
    ((List.range 14).map c.derive.symbolSamples).sum = 15 * c.nUsefulOf := by
  have lengths := sum_range_getD (reconcile c.mu.toNat c.nUsefulOf (15 * c.nUsefulOf))
  rw [reconcile_length, reconcile_sum] at lengths
  zify
  simp only [EffectiveConfig.symbolSamples, c.derive_nUseful, List.map_map, Function.comp_def, Nat.cast_add,
    StagedConfig.derive_cpLenAt h normal, List.sum_map_add, lengths, List.map_const', List.sum_replicate,
    List.length_range]
  push_cast
  ring

/-- What CFG_APPLY latches is tiled (40_config.md R150, R151). -/
theorem StagedConfig.Accepted.tiled {c : StagedConfig} (h : c.Accepted) : c.derive.Tiled where
  subcarriers := c.derive_nSubcarriers
  symbols := by rw [h.derive_totalSymbols, h.derive_totalSlots, c.derive_symsPerSlot, Nat.mul_comm]
  samples normal := by
    rw [h.derive_totalSamples normal, h.derive_totalSlots, StagedConfig.derive_slotSamples normal]
  slot normal := by
    have fourteen : c.sps = 14 := if_pos normal
    rw [c.derive_symsPerSlot, fourteen, StagedConfig.derive_slot_sum h normal,
      StagedConfig.derive_slotSamples normal, h.slotSamples_eq]

/-- The effective registers of a latched state are tiled. -/
theorem EffectiveLatched.tiled {s : State} (h : EffectiveLatched s) : s.eff.Tiled := by
  rcases h with ⟨-, zero⟩ | ⟨c, accepted, derived⟩
  · rw [zero]; exact EffectiveConfig.zero_tiled
  · rw [derived]; exact accepted.tiled

/-- A symbol of a slot of the frame is a symbol of the frame. -/
theorem EffectiveConfig.Tiled.slot_symbol_lt {e : EffectiveConfig} (h : e.Tiled) {slot symb : Nat}
    (hslot : slot < e.totalSlots.toNat) (hsymb : symb < e.symsPerSlot.toNat) :
    slot * e.symsPerSlot.toNat + symb < e.totalSymbols.toNat := by
  rw [h.symbols]
  calc slot * e.symsPerSlot.toNat + symb
      _ < slot * e.symsPerSlot.toNat + e.symsPerSlot.toNat := Nat.add_lt_add_left hsymb _
      _ = (slot + 1) * e.symsPerSlot.toNat := (Nat.succ_mul _ _).symm
      _ ≤ e.totalSlots.toNat * e.symsPerSlot.toNat := Nat.mul_le_mul_right _ hslot

/-- Every symbol of the frame ends within OUT (44_ofdm.md R265). -/
theorem EffectiveConfig.Tiled.span_le {e : EffectiveConfig} (h : e.Tiled) (normal : e.cp = 0) {l : Nat}
    (hl : l < e.totalSymbols.toNat) :
    e.symbolOffset l + e.symbolSamples (l % e.symsPerSlot.toNat) ≤ e.totalSamples.toNat := by
  rw [h.symbols] at hl
  have hsps : 0 < e.symsPerSlot.toNat := Nat.pos_of_ne_zero fun zero => by simp [zero] at hl
  have place : l % e.symsPerSlot.toNat + 1 ≤ e.symsPerSlot.toNat := Nat.mod_lt _ hsps
  have slot : l / e.symsPerSlot.toNat + 1 ≤ e.totalSlots.toNat := Nat.div_lt_of_lt_mul (by rwa [Nat.mul_comm] at hl)
  have upTo : ((List.range (l % e.symsPerSlot.toNat + 1)).map e.symbolSamples).sum ≤ e.slotSamples.toNat := by
    rw [← h.slot normal]
    exact (((List.range_sublist.2 place).map _).sum_le_sum (by simp))
  calc e.symbolOffset l + e.symbolSamples (l % e.symsPerSlot.toNat)
      _ = l / e.symsPerSlot.toNat * e.slotSamples.toNat
            + ((List.range (l % e.symsPerSlot.toNat + 1)).map e.symbolSamples).sum := by
          rw [List.sum_range_succ, EffectiveConfig.symbolOffset, Nat.add_assoc]
      _ ≤ l / e.symsPerSlot.toNat * e.slotSamples.toNat + e.slotSamples.toNat := Nat.add_le_add_left upTo _
      _ = (l / e.symsPerSlot.toNat + 1) * e.slotSamples.toNat := (Nat.succ_mul _ _).symm
      _ ≤ e.totalSlots.toNat * e.slotSamples.toNat := Nat.mul_le_mul_right _ slot
      _ = e.totalSamples.toNat := (h.samples normal).symm

end Sys2Proof.Machine
end

section
/-! PROOFS. What one step can do to the part of the state the invariant speaks of, said once as a relation of six
cases; each invariant is then a lemma over those cases. -/

namespace Sys2Proof.Machine

/-! ### Rewriting an element memory -/

section
variable {α : Type} [DecidableEq α] {d : α} {inside : Nat → Prop}

/-- `m'` is `m` with elements changed at indices that are `inside`, or dropped; canonical if `m` was. -/
def Memory.Rewritten (d : α) (inside : Nat → Prop) (m m' : Memory α) : Prop :=
  (Memory.wf d m → Memory.wf d m') ∧ ∀ e ∈ m', e ∈ m ∨ inside e.1

theorem Memory.Rewritten.refl (m : Memory α) : Memory.Rewritten d inside m m := ⟨id, fun _ => .inl⟩

theorem Memory.Rewritten.nil (m : Memory α) : Memory.Rewritten d inside m [] :=
  ⟨fun _ => Memory.wf_nil, by simp⟩

theorem Memory.Rewritten.writeRange {m m' : Memory α} (h : Memory.Rewritten d inside m m') {start len : Nat}
    (f : Nat → α) (range : ∀ a, start ≤ a → a < start + len → inside a) :
    Memory.Rewritten d inside m (Memory.writeRange d m' start len f) := by
  obtain ⟨canonical, origin⟩ := h
  refine ⟨fun hm => Memory.wf_writeRange (canonical hm) .., fun e he => ?_⟩
  rcases Memory.mem_writeRange he with old | ⟨low, high⟩
  · exact origin e old
  · exact .inr (range e.1 low high)

/-- Rewriting over and over is rewriting. -/
theorem Memory.Rewritten.foldl {m m' : Memory α} (h : Memory.Rewritten d inside m m') (n : Nat)
    {op : Memory α → Nat → Memory α}
    (hop : ∀ g i, i < n → Memory.Rewritten d inside m g → Memory.Rewritten d inside m (op g i)) :
    Memory.Rewritten d inside m ((List.range n).foldl op m') :=
  List.foldlRecOn (List.range n) op h fun g hg i hi => hop g i (List.mem_range.1 hi) hg

end

/-! ### Which elements the commands write -/

/-- The index of GRID names an element that exists, where the effective registers fit together. -/
def State.gridTarget (s : State) (a : Nat) : Prop :=
  s.eff.Tiled → s.gridExists (a % gridStride) (a / gridStride) = true

/-- The index of OUT names a sample that exists, where the effective registers fit together. -/
def State.outTarget (s : State) (n : Nat) : Prop := s.eff.Tiled → s.outExists n = true

theorem State.gridExists_iff {s : State} {k l : Nat} : s.gridExists k l = true
    ↔ s.cfgValid = true ∧ k < s.eff.nSubcarriers.toNat ∧ l < s.eff.totalSymbols.toNat := by
  simp [State.gridExists, and_assoc]

theorem State.outExists_iff {s : State} {n : Nat} : s.outExists n = true
    ↔ s.cfgValid = true ∧ n < s.eff.totalSamples.toNat := by
  simp [State.outExists]

/-- An existing element is kept under the index that names it. -/
theorem State.gridTarget_gridKey {s : State} {k l : Nat} (h : s.gridExists k l = true) :
    s.gridTarget (gridKey k l) := by
  have width : k < gridStride := (State.gridExists_iff.1 h).2.1.trans s.eff.nSubcarriers.isLt
  have subcarrier : gridKey k l % gridStride = k := by rw [gridKey, Nat.mul_add_mod, Nat.mod_eq_of_lt width]
  have symbol : gridKey k l / gridStride = l := by
    rw [gridKey, Nat.mul_add_div (by decide), Nat.div_eq_of_lt width, Nat.add_zero]
  intro
  rwa [subcarrier, symbol]

/-- Writing the resource blocks `rb0 .. rb0+nrbf-1` of column `l` keeps to existing elements. -/
theorem State.gridTarget_blocks {s : State} {g : Memory RE} {rb0 nrbf l : Nat} (valid : s.cfgValid = true)
    (hrb : rb0 + nrbf ≤ s.eff.nrb.toNat) (hl : s.eff.Tiled → l < s.eff.totalSymbols.toNat)
    (hg : Memory.Rewritten RE.blank s.gridTarget s.grid g) (f : Nat → RE) :
    Memory.Rewritten RE.blank s.gridTarget s.grid
      (Memory.writeRange RE.blank g (gridKey (12 * rb0) l) (12 * nrbf) f) := by
  refine hg.writeRange f fun a low high tiled => ?_
  obtain ⟨i, rfl⟩ := Nat.exists_eq_add_of_le low
  have width : 12 * rb0 + i < s.eff.nSubcarriers.toNat := by rw [tiled.subcarriers]; omega
  rw [show gridKey (12 * rb0) l + i = gridKey (12 * rb0 + i) l from Nat.add_assoc ..]
  exact State.gridTarget_gridKey (State.gridExists_iff.2 ⟨valid, width, hl tiled⟩) tiled

/-- QAM_FILL keeps to existing elements (42_qam.md R205). -/
theorem State.fillRect_rewritten {s : State} (tag : Tag) (ord : Order) {rb0 nrbf l0 nl : Nat} (draw : Nat)
    (valid : s.cfgValid = true) (hrb : rb0 + nrbf ≤ s.eff.nrb.toNat) (hl : l0 + nl ≤ s.eff.totalSymbols.toNat) :
    Memory.Rewritten RE.blank s.gridTarget s.grid (fillRect ord tag rb0 nrbf l0 nl draw s.grid) :=
  (Memory.Rewritten.refl s.grid).foldl nl fun _ _ hj hg =>
    State.gridTarget_blocks valid hrb (fun _ => by omega) hg _

/-- RS_GEN keeps to existing elements: symbol SYMB of slot SLOT is a symbol of the frame (43_refsig.md R236). -/
theorem State.rsGrid_rewritten {s : State} (c : BitVec 31) (valid : s.cfgValid = true)
    (hrb : s.argRb0 + s.argNrbf ≤ s.eff.nrb.toNat) (hslot : s.argSlot < s.eff.totalSlots.toNat)
    (hsymb : s.argSymb < s.eff.symsPerSlot.toNat) :
    Memory.Rewritten RE.blank s.gridTarget s.grid (s.rsGrid c) := by
  refine State.gridTarget_blocks valid hrb (fun tiled => ?_) (.refl s.grid) _
  exact tiled.slot_symbol_lt hslot hsymb

/-- The GRID port keeps to existing elements (20_memory.md R84). -/
theorem State.writeElement_rewritten {s : State} {k l : Nat} (h : s.gridExists k l = true) (v : RE) :
    Memory.Rewritten RE.blank s.gridTarget s.grid (Memory.write RE.blank s.grid (gridKey k l) v) := by
  refine (Memory.Rewritten.refl s.grid).writeRange _ fun a low high => ?_
  obtain rfl : a = gridKey k l := by omega
  exact State.gridTarget_gridKey h

/-- Modulating a symbol of the frame keeps to existing samples (44_ofdm.md R265). -/
theorem State.modulateSymbol_rewritten {s : State} {o : Memory Sample} {l : Nat} (valid : s.cfgValid = true)
    (normal : s.eff.cp = 0) (hl : s.eff.Tiled → l < s.eff.totalSymbols.toNat)
    (ho : Memory.Rewritten Sample.zero s.outTarget s.out o) :
    Memory.Rewritten Sample.zero s.outTarget s.out (modulateSymbol Config.transform s.eff s.grid l o) := by
  refine ho.writeRange _ fun n _ high tiled => State.outExists_iff.2 ⟨valid, ?_⟩
  exact high.trans_le (tiled.span_le normal (hl tiled))

theorem State.modulateSlot_rewritten {s : State} {o : Memory Sample} {slot : Nat} (valid : s.cfgValid = true)
    (normal : s.eff.cp = 0) (hslot : slot < s.eff.totalSlots.toNat)
    (ho : Memory.Rewritten Sample.zero s.outTarget s.out o) :
    Memory.Rewritten Sample.zero s.outTarget s.out (modulateSlot Config.transform s.eff s.grid slot o) :=
  ho.foldl _ fun _ _ hi => State.modulateSymbol_rewritten valid normal fun tiled => tiled.slot_symbol_lt hslot hi

theorem State.modulateFrame_rewritten {s : State} {o : Memory Sample} (valid : s.cfgValid = true)
    (normal : s.eff.cp = 0) (ho : Memory.Rewritten Sample.zero s.outTarget s.out o) :
    Memory.Rewritten Sample.zero s.outTarget s.out (modulateFrame Config.transform s.eff s.grid o) :=
  ho.foldl _ fun _ _ hslot => State.modulateSlot_rewritten valid normal hslot

/-! ### The effects of a step -/

/-- `t` has the configuration and the report of `s`, and GRID and OUT rewritten at existing elements only. -/
structure Works (s t : State) : Prop where
  cfgValid : t.cfgValid = s.cfgValid
  eff : t.eff = s.eff
  err : t.err = s.err
  errCode : t.errCode = s.errCode
  grid : Memory.Rewritten RE.blank s.gridTarget s.grid t.grid
  out : Memory.Rewritten Sample.zero s.outTarget s.out t.out

theorem Works.refl (s : State) : Works s s := ⟨rfl, rfl, rfl, rfl, .refl _, .refl _⟩

/-- What an access or a command can do to configuration, report and memories. -/
inductive Effect (s : State) : State → Prop where
  | works {t : State} (h : Works s t) : Effect s t
  | raises (e : CmdError) : Effect s (s.raise e)
  | failsConfig (e : CmdError) : Effect s (s.failConfig e)
  | latches (h : s.cfg.Accepted) : Effect s { s with eff := s.cfg.derive, grid := [], out := [], cfgValid := true }
  | acknowledges (clearDone clearErr : Bool) : Effect s (s.clearReport clearDone clearErr)
  | resets : Effect s s.toReset

/-- A settled command has the effect of its success or raises its error. -/
theorem Effect.of_settle {s t : State} {r : Except CmdError State} (h : s.settle r = .next t)
    (success : ∀ u, r = .ok u → Works s u) : Effect s t := by
  rcases State.settle_next.1 h with ok | ⟨e, -, rfl⟩
  · exact .works (success t ok)
  · exact .raises e

/-- Every command has one of the effects. -/
theorem exec_effect {i : Instr} {s t : State} (h : exec i s = .next t) : Effect s t := by
  have same : Works s s := .refl s
  cases i with
  | nop => cases h; exact .works same
  | cfgApply =>
    cases h
    unfold State.applyConfig
    split
    next accepted => exact .latches accepted
    next e _ => exact .failsConfig e
  | gridClear =>
    refine .of_settle h fun u ok => ?_
    obtain ⟨-, ok⟩ := State.needConfig_ok.1 ok
    cases ok
    exact { same with grid := .nil _ }
  | prbsSeed => cases h; exact .works { same with }
  | prbsGen => cases h; exact .works { same with }
  | prbsSkip => cases h; exact .works { same with }
  | qamMap => cases h; exact .works { same with }
  | qamFill tag ord =>
    refine .of_settle h fun u ok => ?_
    obtain ⟨valid, ok⟩ := State.needConfig_ok.1 ok
    obtain ⟨⟨hrb, hl⟩, ok⟩ := needRange_ok.1 ok
    cases ok
    exact { same with grid := State.fillRect_rewritten tag ord _ valid hrb hl }
  | rsCinit =>
    refine .of_settle h fun u ok => ?_
    obtain ⟨-, ok⟩ := State.needConfig_ok.1 ok
    cases ok
    exact { same with }
  | rsGen sel =>
    refine .of_settle h fun u ok => ?_
    obtain ⟨valid, ok⟩ := State.needConfig_ok.1 ok
    obtain ⟨⟨hrb, hslot, hsymb⟩, ok⟩ := needRange_ok.1 ok
    cases ok
    exact { same with grid := State.rsGrid_rewritten _ valid hrb hslot hsymb }
  | ofdmSym sym =>
    refine .of_settle h fun u ok => ?_
    obtain ⟨valid, normal, ok⟩ := State.needNormalCp_ok.1 ok
    obtain ⟨hl, ok⟩ := needRange_ok.1 ok
    cases ok
    exact { same with out := State.modulateSymbol_rewritten valid normal (fun _ => hl) (.refl _) }
  | ofdmSlot slot =>
    refine .of_settle h fun u ok => ?_
    obtain ⟨valid, normal, ok⟩ := State.needNormalCp_ok.1 ok
    obtain ⟨hslot, ok⟩ := needRange_ok.1 ok
    cases ok
    exact { same with out := State.modulateSlot_rewritten valid normal hslot (.refl _) }
  | ofdmFrame =>
    refine .of_settle h fun u ok => ?_
    obtain ⟨valid, normal, ok⟩ := State.needNormalCp_ok.1 ok
    cases ok
    exact { same with out := State.modulateFrame_rewritten valid normal (.refl _) }

/-- Every register write has one of the effects. -/
theorem writeReg_effect (s : State) (r : RegName) (v : BitVec 32) : Effect s (s.writeReg r v) := by
  have same : Works s s := .refl s
  cases r with
  | ctrl =>
    show Effect s (s.writeCtrl v)
    unfold State.writeCtrl
    split
    · exact .resets
    · exact .works { same with }
  | status => exact .acknowledges ..
  | cmd =>
    show Effect s (s.writeCmd v)
    unfold State.writeCmd
    split
    · exact .raises .busy
    · exact .works { same with }
  | _ => exact .works { same with }

/-- Every host access has one of the effects. -/
theorem hostAccess_effect {a : HostAccess} {s t : State} (h : hostAccess a s = .next t) : Effect s t := by
  have same : Works s s := .refl s
  cases a with
  | regRead =>
    simp only [hostAccess, hostRegRead] at h
    split at h <;> cases h
    exact .works { same with }
  | regWrite =>
    simp only [hostAccess, hostRegWrite] at h
    split at h
    · split at h
      · cases h; exact .works same
      · split at h <;> cases h
        exact writeReg_effect ..
    · cases h
  | gridRead =>
    simp only [hostAccess, hostGridRead] at h
    repeat' split at h
    all_goals cases h
    all_goals exact .works { same with }
  | gridWrite =>
    simp only [hostAccess, hostGridWrite] at h
    split at h
    · cases h
    · split at h
      next present =>
        split at h
        · cases h
        · split at h <;> cases h
          exact .works { same with grid := State.writeElement_rewritten present _ }
      next => cases h
  | outRead =>
    simp only [hostAccess, hostOutRead] at h
    repeat' split at h
    all_goals cases h
    all_goals exact .works { same with }
  | outWrite => cases h

/-- What every effect keeps, every step keeps. -/
theorem step_keeps {P : State → Prop} (kept : ∀ {s t}, Effect s t → P s → P t) {s t : State} (h : step s = .next t)
    (hs : P s) : P t := by
  have popped : P s.popTurn := kept (.works { Works.refl s with }) hs
  have completed (u : State) (hu : P u) : P u.complete := kept (.works { Works.refl u with }) hu
  rcases step_cases h with ⟨a, rest, -, access⟩ | ⟨-, turn⟩ | ⟨rest, -, rfl⟩
  · exact kept (hostAccess_effect access) popped
  · rcases engineTurn_cases turn with ⟨-, rfl⟩ | ⟨w, i, u, -, -, performed, rfl⟩ | ⟨w, why, -, -, rfl⟩
    · exact popped
    · exact completed u (kept (exec_effect performed) popped)
    · exact completed _ (kept (.raises _) popped)
  · exact kept .resets popped

/-! ### The parts of the invariant -/

theorem Effect.canonical {s t : State} (h : Effect s t) (hs : MemoriesCanonical s) : MemoriesCanonical t := by
  cases h with
  | works h => exact ⟨h.grid.1 hs.1, h.out.1 hs.2⟩
  | raises | acknowledges => exact hs
  | failsConfig | latches | resets => exact ⟨Memory.wf_nil, Memory.wf_nil⟩

/-- Raising an error leaves a consistent report: the first code stays, and any other is the error's own. -/
theorem reportConsistent_raise {s : State} (e : CmdError) (hs : ReportConsistent s) : ReportConsistent (s.raise e) := by
  refine .inr ⟨rfl, ?_⟩
  rcases hs with ⟨clear, -⟩ | ⟨set, first, code⟩
  · exact ⟨e, by rw [State.raise_errCode, clear]; rfl⟩
  · exact ⟨first, by rw [State.raise_errCode, set]; exact code⟩

theorem Effect.report {s t : State} (h : Effect s t) (hs : ReportConsistent s) : ReportConsistent t := by
  cases h with
  | works h => unfold ReportConsistent; rwa [h.err, h.errCode]
  | raises e => exact reportConsistent_raise e hs
  | failsConfig e => exact reportConsistent_raise e hs
  | latches => exact hs
  | acknowledges clearDone clearErr =>
    cases clearErr with
    | false => simpa [ReportConsistent] using hs
    | true => exact .inl ⟨Bool.and_false _, rfl⟩
  | resets => exact .inl ⟨rfl, rfl⟩

theorem Effect.latched {s t : State} (h : Effect s t) (hs : EffectiveLatched s) : EffectiveLatched t := by
  cases h with
  | works h => unfold EffectiveLatched; rwa [h.cfgValid, h.eff]
  | raises | acknowledges => exact hs
  | failsConfig => exact hs.imp_left fun ⟨_, zero⟩ => ⟨rfl, zero⟩
  | latches accepted => exact .inr ⟨s.cfg, accepted, rfl⟩
  | resets => exact .inl ⟨rfl, rfl⟩

/-- Only existing elements are listed, said index by index: with no configuration none exists. -/
theorem memoriesExist_iff {s : State} : MemoriesExist s
    ↔ (∀ e ∈ s.grid, s.gridExists (e.1 % gridStride) (e.1 / gridStride) = true)
      ∧ ∀ e ∈ s.out, s.outExists e.1 = true := by
  simp only [MemoriesExist, State.gridExists_iff, State.outExists_iff]
  cases valid : s.cfgValid with
  | false => simp +contextual [← List.eq_nil_iff_forall_not_mem]
  | true => simp

theorem Effect.exist {s t : State} (h : Effect s t) (hs : EffectiveLatched s ∧ MemoriesExist s) : MemoriesExist t := by
  obtain ⟨latched, exist⟩ := hs
  cases h with
  | works h =>
    rw [memoriesExist_iff] at exist ⊢
    have gridSame : t.gridExists = s.gridExists := by unfold State.gridExists; rw [h.cfgValid, h.eff]
    have outSame : t.outExists = s.outExists := by unfold State.outExists; rw [h.cfgValid, h.eff]
    rw [gridSame, outSame]
    exact ⟨fun e he => (h.grid.2 e he).elim (exist.1 e) fun target => target latched.tiled,
      fun e he => (h.out.2 e he).elim (exist.2 e) fun target => target latched.tiled⟩
  | raises | acknowledges => exact exist
  | failsConfig | latches | resets => exact memoriesExist_iff.2 ⟨by simp [State.reset], by simp [State.reset]⟩

theorem Effect.sound {s t : State} (h : Effect s t) (hs : Sound s) : Sound t := by
  obtain ⟨canonical, report, latched, exist⟩ := hs
  exact ⟨h.canonical canonical, h.report report, h.latched latched, h.exist ⟨latched, exist⟩⟩

end Sys2Proof.Machine

open Sys2Proof.Machine

/-- Settles O58: at reset nothing is listed, reported or configured. -/
theorem resetIsSound : Obligations.ResetIsSound :=
  ⟨⟨Memory.wf_nil, Memory.wf_nil⟩, .inl ⟨rfl, rfl⟩, .inl ⟨rfl, rfl⟩, fun _ => ⟨rfl, rfl⟩, by simp [State.reset],
    by simp [State.reset]⟩

/-- Settles O59: memories change by range writes, which keep the canonical form, or are emptied. -/
theorem canonicalMemoriesKept : Obligations.CanonicalMemoriesKept :=
  fun _ _ hs h => step_keeps Effect.canonical h hs

/-- Settles O60: each part of the invariant is kept by every effect; that written elements exist needs the latched
registers to fit together. -/
theorem soundKept : Obligations.SoundKept :=
  fun _ _ hs h => step_keeps Effect.sound h hs

end

section
/-! PROOFS. The register window as the host sees it (10_state.md R30 to R37, R57, R58): one rule for a register read,
one for a register write, what a write does to every register, and a command's way from CMD to its effect. -/

namespace Sys2Proof.Machine

/-! ### Bits of words -/

/-- The mask of the low `n` bits. -/
theorem getElem_lowMask {n i : Nat} (hi : i < 32) : (BitVec.ofNat 32 (2 ^ n - 1))[i] = decide (i < n) := by
  rw [← BitVec.getLsbD_eq_getElem, BitVec.getLsbD_ofNat, Nat.testBit_two_pow_sub_one, decide_eq_true hi, Bool.true_and]

/-- Cutting out the low bits of a word is masking it. -/
theorem setWidth_extractLsb' (v : BitVec 32) (n : Nat) :
    (v.extractLsb' 0 n).setWidth 32 = v &&& BitVec.ofNat 32 (2 ^ n - 1) := by
  ext i hi
  simp [getElem_lowMask, BitVec.getLsbD_eq_getElem hi, Bool.and_comm]

/-- A narrow register has no bit at or above its width. -/
theorem setWidth_and_not_mask {n : Nat} (x : BitVec n) :
    x.setWidth 32 &&& ~~~BitVec.ofNat 32 (2 ^ n - 1) = 0 := by
  ext i hi
  by_cases h : i < n <;> simp [getElem_lowMask, h]
  exact BitVec.getLsbD_of_ge x i (by omega)

/-- A numerology word as a number (10_state.md R38). -/
theorem numWord_eq (mu : BitVec 3) (cp : BitVec 2) : numWord mu cp = BitVec.ofNat 32 (mu.toNat + 16 * cp.toNat) := by
  revert mu cp; decide

/-- Writing a numerology word and reading it back keeps its five bits. -/
theorem numWord_extractLsb' (v : BitVec 32) : numWord (v.extractLsb' 0 3) (v.extractLsb' 4 2) = v &&& 0x37#32 := by
  refine BitVec.eq_of_getLsbD_eq fun i hi => ?_
  simp only [numWord, BitVec.getLsbD_setWidth, BitVec.getLsbD_append, BitVec.getLsbD_extractLsb', BitVec.getLsbD_and]
  interval_cases i <;> simp

theorem numWord_and_not_mask (mu : BitVec 3) (cp : BitVec 2) : numWord mu cp &&& ~~~0x37#32 = 0 := by
  revert mu cp; decide

theorem ctrlWord_eq (s : State) : s.ctrlWord = if s.irqEn then 0x2#32 else 0#32 := by
  unfold State.ctrlWord; cases s.irqEn <;> rfl

/-- STATUS as a number (10_state.md R34). -/
theorem statusWord_eq (s : State) : s.statusWord = BitVec.ofNat 32
    (s.pending.isSome.toNat + 2 * s.cfgValid.toNat + 4 * s.done.toNat + 8 * s.err.toNat) := by
  unfold State.statusWord State.busy
  generalize s.pending.isSome = b, s.cfgValid = c, s.done = d, s.err = e
  revert b c d e; decide

/-! ### Words and fields -/

/-- A word made of an opcode, must-be-zero bits and one field has each where the format says. -/
theorem extract_opcode_mbz_field {n m : Nat} (op : BitVec 8) (field : BitVec m) :
    (op ++ 0#n ++ field).extractLsb' (n + m) 8 = op ∧ (op ++ 0#n ++ field).extractLsb' m n = 0#n
      ∧ (op ++ 0#n ++ field).extractLsb' 0 m = field := by
  refine ⟨?_, ?_, BitVec.extractLsb'_append_eq_right⟩
  · rw [BitVec.extractLsb'_append_eq_of_le (Nat.le_add_left m n), Nat.add_sub_cancel,
      BitVec.extractLsb'_append_eq_left]
  · rw [BitVec.extractLsb'_append_eq_of_le le_rfl, Nat.sub_self, BitVec.extractLsb'_append_eq_right]

theorem Decoded.ofFormat_wellFormed {i : Instr} (h : i.WellFormed = true) :
    Decoded.ofFormat true (some i) = .command i := by
  simp [Decoded.ofFormat, Decoded.ofFields, h]

/-- A well-formed command's word decodes to it. The operands of no fixed small set, CNT, SYM and SLOT, are read back
where their format has them; the other commands have finitely many words. -/
theorem decode_encode {i : Instr} (h : i.WellFormed = true) : decode (encode i) = .command i := by
  cases i with
  | prbsGen cnt =>
    obtain ⟨opcode, mbz, field⟩ := extract_opcode_mbz_field (n := 18) 0x11#8 cnt
    rw [decode, encode, opcode]
    show decodeFG _ _ = _
    rw [decodeFG, mbz, field]
    exact Decoded.ofFormat_wellFormed h
  | ofdmSym sym =>
    obtain ⟨opcode, mbz, field⟩ := extract_opcode_mbz_field (n := 12) 0x40#8 sym
    rw [decode, encode, opcode]
    show decodeFS _ _ = _
    rw [decodeFS, mbz, field]
    exact Decoded.ofFormat_wellFormed h
  | ofdmSlot slot =>
    obtain ⟨opcode, mbz, field⟩ := extract_opcode_mbz_field (n := 16) 0x41#8 slot
    rw [decode, encode, opcode]
    show decodeFT _ _ = _
    rw [decodeFT, mbz, field]
    exact Decoded.ofFormat_wellFormed h
  | qamMap ord => cases ord <;> decide
  | qamFill tag ord => cases tag <;> cases ord <;> revert h <;> decide
  | rsCinit sel | rsGen sel => cases sel <;> decide
  | _ => decide

/-! ### Reading a register -/

@[simp] theorem State.popTurn_readReg (s : State) (r : RegName) : s.popTurn.readReg r = s.readReg r := by
  cases r <;> rfl

/-- The pending footprint is empty, or that of the command the pending word decodes to. -/
theorem pendingFootprint_cases (s : State) : s.pendingFootprint = .none
    ∨ ∃ w i, s.pending = some w ∧ decode w = .command i ∧ s.pendingFootprint = footprint i := by
  cases hp : s.pending with
  | none => exact .inl (pendingFootprint_idle hp)
  | some w =>
    cases hd : decode w with
    | command i => exact .inr ⟨w, i, rfl, hd, pendingFootprint_command hp hd⟩
    | illegal why => exact .inl (by simp [State.pendingFootprint, State.pendingCommand, hp, hd])

theorem readHazard_eq_false {s : State} {r : RegName}
    (free : ∀ w i, s.pending = some w → decode w = .command i → r ∉ (footprint i).writeRegs) :
    s.readHazard r = false := by
  unfold State.readHazard
  rcases pendingFootprint_cases s with empty | ⟨w, i, hp, hd, command⟩
  · rw [empty]; rfl
  · rw [command]; simpa using free w i hp hd

theorem writeHazard_eq_false {s : State} {r : RegName}
    (free : ∀ w i, s.pending = some w → decode w = .command i →
      r ∉ (footprint i).readRegs ∧ r ∉ (footprint i).writeRegs) :
    s.writeHazard r = false := by
  unfold State.writeHazard
  rcases pendingFootprint_cases s with empty | ⟨w, i, hp, hd, command⟩
  · rw [empty]; rfl
  · rw [command]; simpa using free w i hp hd

/-- A host read of a register that no pending command writes. -/
theorem step_regRead {s : State} {r : RegName} (h : HostMoves s (.regRead 32 r.offset))
    (free : s.readHazard r = false) : step s = .next (s.popTurn.observe (.reg r.offset (s.readReg r))) := by
  have value : s.popTurn.busRead r.offset = (s.readReg r, 0) := by
    rw [State.busRead, regAt_offset, ← State.popTurn_readReg]
    exact if_neg (by rw [show s.popTurn.readHazard r = false from free]; decide)
  rw [step_host h, hostAccess, hostRegRead, if_pos (accessLegal_offset r), value]
  rfl

/-! ### Writing a register -/

/-- A host write of a register that no pending command uses. -/
theorem step_regWrite {s : State} {r : RegName} {v : BitVec 32} (h : HostMoves s (.regWrite 32 r.offset v))
    (free : s.writeHazard r = false) : step s = .next (s.popTurn.writeReg r v) := by
  rw [step_host h, hostAccess, hostRegWrite, if_pos (accessLegal_offset r), regAt_offset]
  exact if_neg (by rw [show s.popTurn.writeHazard r = false from free]; decide)

/-- The registers that store what is written (10_state.md R37 to R42, R47). -/
def plainRegs : List RegName :=
  [.arg0, .arg1, .arg2, .cfgNum, .cfgNrb, .cfgCell, .cfgFs, .cfgNfft, .rsMask, .rsMoff]

/-- A plain register stores the used bits of what is written (10_state.md R31). -/
theorem readReg_writeReg_same {r : RegName} (h : r ∈ plainRegs) (s : State) (v : BitVec 32) :
    (s.writeReg r v).readReg r = v &&& r.usedBits := by
  cases r with
  | arg0 | arg1 | arg2 | cfgFs => exact BitVec.and_allOnes.symm
  | cfgNum => exact numWord_extractLsb' v
  | cfgNrb | cfgCell | cfgNfft | rsMask | rsMoff => exact setWidth_extractLsb' v _
  | _ => simp [plainRegs] at h

/-- A write to a plain register leaves every other register alone. -/
theorem readReg_writeReg_other {r r' : RegName} (h : r ∈ plainRegs) (other : r' ≠ r) (s : State) (v : BitVec 32) :
    (s.writeReg r v).readReg r' = s.readReg r' := by
  cases r with
  | arg0 | arg1 | arg2 | cfgNum | cfgNrb | cfgCell | cfgFs | cfgNfft | rsMask | rsMoff =>
    cases r' <;> first | rfl | exact absurd rfl other
  | _ => simp [plainRegs] at h

/-- A write to a read-only register is ignored (10_state.md R31). -/
theorem writeReg_readOnly {r : RegName} (h : r ∉ [RegName.ctrl, .status, .cmd] ++ plainRegs) (s : State)
    (v : BitVec 32) : s.writeReg r v = s := by
  cases r with
  | ctrl | status | cmd | arg0 | arg1 | arg2 | cfgNum | cfgNrb | cfgCell | cfgFs | cfgNfft | rsMask | rsMoff =>
    exact absurd (by decide) h
  | _ => rfl

/-- A host write to STATUS. -/
theorem step_writeStatus {s : State} {v : BitVec 32} (h : HostMoves s (.regWrite 32 0x008#12 v)) :
    step s = .next (s.popTurn.writeStatus v) := step_regWrite (r := .status) h (controlRegs_free s).1

/-- A host write to CMD. -/
theorem step_writeCmd {s : State} {w : BitVec 32} (h : HostMoves s (.regWrite 32 0x010#12 w)) :
    step s = .next (s.popTurn.writeCmd w) := step_regWrite (r := .cmd) h (controlRegs_free s).2.1

/-- A host write to CTRL. -/
theorem step_writeCtrl {s : State} {v : BitVec 32} (h : HostMoves s (.regWrite 32 0x004#12 v)) :
    step s = .next (s.popTurn.writeCtrl v) := step_regWrite (r := .ctrl) h (controlRegs_free s).2.2

/-- CMD takes a word when nothing is pending (10_state.md R36). -/
theorem writeCmd_idle {s : State} (h : s.pending = none) (w : BitVec 32) :
    s.writeCmd w = { s with pending := some w } := if_neg (by simp [State.busy, h])

/-- CMD refuses a word while one is pending (10_state.md R36). -/
theorem writeCmd_busy {s : State} {p : BitVec 32} (h : s.pending = some p) (w : BitVec 32) :
    s.writeCmd w = s.raise .busy := if_pos (by simp [State.busy, h])

/-- The engine performs a pending command and completes (60_exceptions.md R304). -/
theorem engineTurn_command {s u : State} {w : BitVec 32} {i : Instr} (hp : s.pending = some w)
    (hd : decode w = .command i) (performed : exec i s = .next u) : engineTurn s = .next u.complete := by
  simp [engineTurn, engineStep, hp, hd, performed, finish]

end Sys2Proof.Machine

open Sys2Proof Sys2Proof.Machine

/-- Settles O7: the write makes the word pending, and the engine's turn performs what it decodes to. -/
theorem acceptedCommandRunsNext : Obligations.AcceptedCommandRunsNext := by
  intro s i rest u idle wellFormed agenda performed
  have accepted : step s = .next { s.popTurn with pending := some (encode i) } := by
    rw [step_writeCmd ⟨_, agenda⟩, writeCmd_idle (s := s.popTurn) idle]
  have turn : EngineMoves { s.popTurn with pending := some (encode i) } :=
    .inr ⟨rest, by show s.env.agenda.tail = _; rw [agenda, List.tail_cons]⟩
  have completed : step { s.popTurn with pending := some (encode i) } = .next u.complete := by
    rw [step_engine turn]
    exact engineTurn_command rfl (decode_encode wellFormed) performed
  rw [core_run_of_step accepted, core_run_of_step completed]
  rfl

/-- Settles O13, by the two answers of a CMD write. -/
theorem cmdWriteAcceptedOrBusy : Obligations.CmdWriteAcceptedOrBusy := by
  intro s w
  refine ⟨rfl, fun h => ⟨fun idle => ⟨?_, rfl⟩, fun p pending => ?_⟩⟩
  · rw [step_writeCmd h, writeCmd_idle (s := s.popTurn) idle]
  · rw [step_writeCmd h, writeCmd_busy (s := s.popTurn) pending]
    rfl

/-- Settles O17: both resets are `toReset` at the state whose turn is taken. -/
theorem resetRestoresResetState : Obligations.ResetRestoresResetState := by
  intro s
  refine ⟨fun rest agenda => ?_, fun v h => ⟨fun set => ?_, fun clear => ?_⟩⟩
  · rw [step, agenda]
    rfl
  · rw [step_writeCtrl h, State.writeCtrl, if_pos set]
    rfl
  · rw [step_writeCtrl h, State.writeCtrl, if_neg (by rw [clear]; decide)]

/-- Settles O19: the map finds no register at the offset. -/
theorem unlistedOffsetsReadZero : Obligations.UnlistedOffsetsReadZero := by
  intro s off v aligned unlisted
  have legal : accessLegal 32 off = true := by simp [accessLegal, aligned]
  refine ⟨fun h => ?_, fun h => ?_⟩
  · rw [step_host h, hostAccess, hostRegRead, if_pos legal, State.busRead, regAt_unlisted unlisted]
    rfl
  · rw [step_host h, hostAccess, hostRegWrite, if_pos legal, regAt_unlisted unlisted]

/-- Settles O20: the listed entry is the register's offset and value, and a free read returns that value. -/
theorem readsReturnCurrentValue : Obligations.ReadsReturnCurrentValue := by
  intro s r entry
  have listed : entry = (r.offset, s.readReg r) := by
    cases r with
    | ctrl => exact congrArg _ (ctrlWord_eq s).symm
    | status => exact congrArg _ (statusWord_eq s).symm
    | cfgNum => exact congrArg _ (numWord_eq ..).symm
    | effNum => exact congrArg _ (numWord_eq ..).symm
    | _ => rfl
  rw [listed]
  exact ⟨rfl, fun h free => step_regRead h (readHazard_eq_false free)⟩

/-- Settles O23: a full-width register has no unused bit, a narrow one is zero-extended, and CTRL, STATUS and the two
numerology words are checked value by value. -/
theorem unusedBitsReadZero : Obligations.UnusedBitsReadZero := by
  intro s r
  have full (x : BitVec 32) : x &&& ~~~0xFFFFFFFF#32 = 0 := BitVec.and_zero
  cases r with
  | ctrl => rw [State.readReg, ctrlWord_eq]; cases s.irqEn <;> decide
  | status =>
    rw [State.readReg, statusWord_eq]
    generalize s.pending.isSome = b, s.cfgValid = c, s.done = d, s.err = e
    revert b c d e; decide
  | cfgNum | effNum => exact numWord_and_not_mask ..
  | id | cmd | arg0 | arg1 | arg2 | cfgFs | effFs | scsHz | nUseful | cpShort | cpLong | slotSamples | totalSamples
  | cpLen | prbsPos | prbsOut | mapI | mapQ => exact full _
  | _ => exact setWidth_and_not_mask _

/-- Settles O24: each listed entry is a plain register with its offset, its used bits and the state after its write. -/
theorem plainRegistersReadBack : Obligations.PlainRegistersReadBack := by
  intro s v r off mask t entry h free
  obtain ⟨plain, rfl, rfl, rfl⟩ :
      r ∈ plainRegs ∧ off = r.offset ∧ mask = r.usedBits ∧ t = s.popTurn.writeReg r v := by
    simp only [List.mem_cons, List.not_mem_nil, or_false, Prod.mk.injEq] at entry
    rcases entry with e | e | e | e | e | e | e | e | e | e <;>
      (obtain ⟨rfl, rfl, rfl, rfl⟩ := e; exact ⟨by decide, rfl, rfl, rfl⟩)
  refine ⟨step_regWrite h (writeHazard_eq_false free), readReg_writeReg_same plain .., fun r' other => ?_⟩
  rw [readReg_writeReg_other plain other, State.popTurn_readReg]

/-- Settles O25: the write of a read-only register is the identity. -/
theorem readOnlyRegistersIgnoreWrites : Obligations.ReadOnlyRegistersIgnoreWrites := by
  intro s r v h readOnly free
  rw [step_regWrite h free, writeReg_readOnly readOnly]

/-- Settles O12: the write is `clearReport` of bits 2 and 3. -/
theorem statusWriteAcknowledges : Obligations.StatusWriteAcknowledges := by
  intro s v h
  rw [step_writeStatus h, State.writeStatus]
  cases v.getLsbD 2 <;> cases v.getLsbD 3 <;> simp [State.clearReport]

/-- Settles O14, by the place of each flag in the word. -/
theorem statusWordBits : Obligations.StatusWordBits := by
  intro s
  simp only [State.readReg, State.statusWord, BitVec.getLsbD_append]
  refine ⟨by simp [State.busy], by simp, by simp, by simp, fun i high => ?_⟩
  obtain ⟨i, rfl⟩ := Nat.exists_eq_add_of_le' high
  simp

/-- Settles O15: the line is a conjunction of stored flags. -/
theorem interruptLine : Obligations.InterruptLine := by
  intro s
  rw [State.irq, Bool.and_eq_true, Bool.or_eq_true]

/-- Settles O16, register by register. -/
theorem resetValues : Obligations.ResetValues := by
  refine ⟨fun r => ?_, rfl, rfl⟩
  cases r with
  | cpLen i => fin_cases i <;> rfl
  | _ => rfl

end

section
/-! PROOFS. The host's ports (20_memory.md R80 to R86): each port operation has a rule for the access that is refused
and one for the access that goes through, and only CFG_APPLY's own word re-creates the memories. -/

namespace Sys2Proof.Machine

/-! ### The pending word and the memories -/

/-- A format yields a command when its must-be-zero bits are 0 and its fields name a legal one (30_encoding.md R112). -/
theorem Decoded.ofFormat_eq_command {mbz : Bool} {i? : Option Instr} {i : Instr} :
    Decoded.ofFormat mbz i? = .command i ↔ mbz = true ∧ i? = some i ∧ i.WellFormed = true := by
  unfold Decoded.ofFormat Decoded.ofFields
  cases mbz with
  | false => simp
  | true =>
    cases i? with
    | none => simp
    | some j =>
      by_cases wellFormed : j.WellFormed = true
      · simpa [wellFormed] using fun same : j = i => same ▸ wellFormed
      · simpa [wellFormed] using fun same : j = i => same ▸ Bool.eq_false_iff.2 wellFormed

/-- A word is fixed by its opcode and the 24 bits below. -/
theorem word_of_opcode {w : BitVec 32} {op : BitVec 8} (opcode : (w.extractLsb' 24 8).toNat = op.toNat)
    (mbz : w.extractLsb' 0 24 = 0#24) : w = op ++ 0#24 := by
  rw [← BitVec.eq_of_toNat_eq opcode, ← mbz]
  have joined : w.extractLsb' 24 8 ++ w.extractLsb' 0 24 = w.extractLsb' 0 32 :=
    BitVec.extractLsb'_append_extractLsb'_eq_extractLsb' rfl
  rw [joined, BitVec.extractLsb'_eq_self]

/-- CFG_APPLY has one word (30_encoding.md R118). -/
theorem decode_eq_cfgApply {w : BitVec 32} : decode w = .command .cfgApply ↔ w = 0x01000000#32 := by
  refine ⟨fun h => ?_, fun h => by rw [h]; decide⟩
  unfold decode at h
  split at h
  case h_2 opcode =>
    obtain ⟨mbz, -, -⟩ := Decoded.ofFormat_eq_command.1 h
    exact word_of_opcode (op := 0x01#8) opcode (eq_of_beq mbz)
  case h_14 => cases h
  all_goals
    obtain ⟨-, other, -⟩ := Decoded.ofFormat_eq_command.1 h
    simp [Option.bind_eq_some_iff] at other

/-- GRID and OUT are being re-created exactly while CFG_APPLY's word is pending (70_reset_and_hazards.md R353). -/
theorem State.reconfiguring_iff {s : State} :
    s.reconfiguring = true ↔ s.pending = some 0x01000000#32 := by
  rw [State.reconfiguring, beq_iff_eq, State.pendingCommand]
  cases s.pending with
  | none => simp
  | some w =>
    rw [Option.some_inj, ← decode_eq_cfgApply]
    dsimp only
    cases decode w <;> simp

/-- Re-creating the memories writes both of them (70_reset_and_hazards.md R345). -/
theorem State.reconfiguring_writes {s : State} (h : s.reconfiguring = true) :
    s.pendingFootprint.writesGrid = true ∧ s.pendingFootprint.writesOut = true := by
  rw [pendingFootprint_command (State.reconfiguring_iff.1 h) (decode_eq_cfgApply.2 rfl)]
  exact ⟨rfl, rfl⟩

/-- What holds of no footprint and of the pending command's holds of the pending footprint. -/
theorem pendingFootprint_of {s : State} {P : Footprint → Prop} (empty : P .none)
    (command : ∀ w i, s.pending = some w → decode w = .command i → P (footprint i)) : P s.pendingFootprint := by
  rcases pendingFootprint_cases s with h | ⟨w, i, hp, hd, h⟩
  · rwa [h]
  · rw [h]; exact command w i hp hd

/-! ### Refused accesses -/

/-- A register access of another width or alignment is refused (20_memory.md R81). -/
theorem accessLegal_eq_false {width : Nat} {offset : BitVec 12} :
    accessLegal width offset = false ↔ width ≠ 32 ∨ offset.toNat % 4 ≠ 0 := by
  simp [accessLegal, ← imp_iff_not_or]

theorem State.gridExists_eq_false {s : State} {k l : Nat} : s.gridExists k l = false
    ↔ s.cfgValid = false ∨ s.eff.nSubcarriers.toNat ≤ k ∨ s.eff.totalSymbols.toNat ≤ l := by
  rw [← Bool.not_eq_true, State.gridExists_iff, not_and_or, not_and_or, Bool.not_eq_true, Nat.not_lt, Nat.not_lt]

theorem State.outExists_eq_false {s : State} {n : Nat} : s.outExists n = false
    ↔ s.cfgValid = false ∨ s.eff.totalSamples.toNat ≤ n := by
  rw [← Bool.not_eq_true, State.outExists_iff, not_and_or, Bool.not_eq_true, Nat.not_lt]

theorem hostRegRead_illegal {s : State} {width : Nat} {offset : BitVec 12} (h : accessLegal width offset = false) :
    hostRegRead width offset s = .fault .busError := by
  rw [hostRegRead, h]; rfl

theorem hostRegWrite_illegal {s : State} {width : Nat} {offset : BitVec 12} {v : BitVec 32}
    (h : accessLegal width offset = false) : hostRegWrite width offset v s = .fault .busError := by
  rw [hostRegWrite, h]; rfl

section
variable {s : State} {k l n : Nat} {v : Sample} {code : BitVec 3}

theorem hostGridRead_missing (settled : s.reconfiguring = false) (missing : s.gridExists k l = false) :
    hostGridRead k l s = .fault .busError := by
  rw [hostGridRead, settled, missing]; rfl

theorem hostGridWrite_missing (settled : s.reconfiguring = false) (missing : s.gridExists k l = false) :
    hostGridWrite k l v code s = .fault .busError := by
  rw [hostGridWrite, settled, missing]; rfl

/-- A reserved tag is refused, whether or not the element exists (20_memory.md R84). -/
theorem hostGridWrite_reserved (settled : s.reconfiguring = false) (reserved : Tag.ofCode code = none) :
    hostGridWrite k l v code s = .fault .busError := by
  cases present : s.gridExists k l with
  | false => exact hostGridWrite_missing settled present
  | true => rw [hostGridWrite, settled, present, reserved]; rfl

theorem hostOutRead_missing (settled : s.reconfiguring = false) (missing : s.outExists n = false) :
    hostOutRead n s = .fault .busError := by
  rw [hostOutRead, settled, missing]; rfl

/-! ### Accesses that go through -/

/-- A memory that the pending command leaves alone is not being re-created. -/
theorem State.reconfiguring_eq_false
    (free : s.pendingFootprint.writesGrid = false ∨ s.pendingFootprint.writesOut = false) :
    s.reconfiguring = false := by
  refine Bool.eq_false_iff.2 fun h => ?_
  obtain ⟨grid, out⟩ := State.reconfiguring_writes h
  rcases free with free | free
  · exact absurd grid (by simp [free])
  · exact absurd out (by simp [free])

/-- A GRID read that no pending command shuts out returns the element (20_memory.md R85). -/
theorem hostGridRead_free (present : s.gridExists k l = true) (free : s.pendingFootprint.writesGrid = false) :
    hostGridRead k l s = .next (s.observe (.grid k l (s.gridAt k l).val (s.gridAt k l).tag.code)) := by
  rw [hostGridRead, State.reconfiguring_eq_false (.inl free), present, free]; rfl

/-- An OUT read that no pending command shuts out returns the sample (20_memory.md R85). -/
theorem hostOutRead_free (present : s.outExists n = true) (free : s.pendingFootprint.writesOut = false) :
    hostOutRead n s = .next (s.observe (.out n (s.outAt n))) := by
  rw [hostOutRead, State.reconfiguring_eq_false (.inr free), present, free]; rfl

/-- A GRID write that no pending command shuts out writes the element (20_memory.md R84). -/
theorem hostGridWrite_free {tag : Tag} (present : s.gridExists k l = true) (named : Tag.ofCode code = some tag)
    (free : s.gridWriteHazard = false) : hostGridWrite k l v code s
      = .next { s with grid := Memory.write RE.blank s.grid (gridKey k l) ⟨v, tag⟩ } := by
  have unwritten : s.pendingFootprint.writesGrid = false := (Bool.or_eq_false_iff.1 free).2
  rw [hostGridWrite, State.reconfiguring_eq_false (.inl unwritten), present, named, free]; rfl

end

/-- Writing one existing element sets it and no other of the stride (00_scope.md R11; log 14). -/
theorem gridAt_write {s t : State} {k l k' l' : Nat} {v : RE} (hk : k < gridStride) (hk' : k' < gridStride)
    (h : t.grid = Memory.write RE.blank s.grid (gridKey k l) v) :
    t.gridAt k' l' = if (k', l') = (k, l) then v else s.gridAt k' l' := by
  have key : gridKey k' l' = gridKey k l ↔ (k', l') = (k, l) :=
    ⟨fun same => Prod.ext_iff.2 (gridKey_inj hk' hk same), fun same => by cases same; rfl⟩
  rw [State.gridAt, h, Memory.read_write]
  exact if_congr key rfl rfl

end Sys2Proof.Machine

open Sys2Proof Sys2Proof.Machine

/-- Settles O26: the write goes through, and every key of the stride but the element's own reads as before. -/
theorem gridPortWrite : Obligations.GridPortWrite := by
  intro s k l v code tag h valid hk hl named free
  have present : s.gridExists k l = true := State.gridExists_iff.2 ⟨valid, hk, hl⟩
  have stride : k < gridStride := hk.trans s.eff.nSubcarriers.isLt
  refine ⟨{ s.popTurn with grid := Memory.write RE.blank s.grid (gridKey k l) ⟨v, tag⟩ }, ?_, rfl, ?_,
    fun k' l' hk' other => ?_⟩
  · rw [step_host h]
    exact hostGridWrite_free (s := s.popTurn) present named free
  · rw [gridAt_write stride stride rfl, if_pos rfl]
  · rw [gridAt_write (s := s) stride hk' rfl, if_neg other]

/-- Settles O27: OUT writes are refused outright; the other ports ask first whether CFG_APPLY is pending, then whether
the access is one that exists. -/
theorem gridPortRefusals : Obligations.GridPortRefusals := by
  intro s
  refine ⟨fun n v h => step_host h, fun other => ?_⟩
  have settled : s.popTurn.reconfiguring = false := Bool.eq_false_iff.2 (mt State.reconfiguring_iff.1 other)
  refine ⟨fun k l outside => ?_, fun k l v code reserved h => ?_, fun n outside h => ?_⟩
  · have missing : s.popTurn.gridExists k l = false := State.gridExists_eq_false.2 outside
    exact ⟨fun h => (step_host h).trans (hostGridRead_missing settled missing),
      fun v code h => (step_host h).trans (hostGridWrite_missing settled missing)⟩
  · have unnamed : Tag.ofCode code = none := by rcases reserved with rfl | rfl <;> rfl
    exact (step_host h).trans (hostGridWrite_reserved settled unnamed)
  · exact (step_host h).trans (hostOutRead_missing settled (State.outExists_eq_false.2 outside))

/-- Settles O28: the premise about the pending command says that its footprint does not write the memory. -/
theorem memoryPortReads : Obligations.MemoryPortReads := by
  intro s valid
  refine ⟨fun unwritten k l h hk hl => ?_, fun unwritten n h hn => ?_⟩
  · have free : s.popTurn.pendingFootprint.writesGrid = false :=
      pendingFootprint_of (P := fun f => f.writesGrid = false) rfl unwritten
    exact (step_host h).trans (hostGridRead_free (State.gridExists_iff.2 ⟨valid, hk, hl⟩) free)
  · have free : s.popTurn.pendingFootprint.writesOut = false :=
      pendingFootprint_of (P := fun f => f.writesOut = false) rfl unwritten
    exact (step_host h).trans (hostOutRead_free (State.outExists_iff.2 ⟨valid, hn⟩) free)

/-- Settles O18: the access is checked before the register is looked up. -/
theorem misalignedAccessFaults : Obligations.MisalignedAccessFaults := by
  intro s width off v wrong
  have illegal : accessLegal width off = false := accessLegal_eq_false.2 wrong
  exact ⟨fun h => (step_host h).trans (hostRegRead_illegal illegal),
    fun h => (step_host h).trans (hostRegWrite_illegal illegal)⟩

end

section
/-! PROOFS. The encoding of commands (30_encoding.md R110 to R119): a word is put together again from its opcode, its
must-be-zero bits and its fields, format by format, and only the opcode makes a word reserved. -/

namespace Sys2Proof

/-! ### Codes -/

/-- An ORD code is that of the modulation it names (30_encoding.md R114). -/
theorem Order.code_of_ofCode {c : BitVec 3} {ord : Order} (h : Order.ofCode c = some ord) : ord.code = c := by
  cases ord <;> revert c <;> decide

/-- A SEL code is that of the seed it names (30_encoding.md R115). -/
theorem Sel.code_of_ofCode {c : BitVec 2} {sel : Sel} (h : Sel.ofCode c = some sel) : sel.code = c := by
  cases sel <;> revert c <;> decide

/-- A TAG code is that of the tag it names (10_state.md R52). -/
theorem Tag.code_of_ofCode {c : BitVec 3} {tag : Tag} (h : Tag.ofCode c = some tag) : tag.code = c := by
  cases tag <;> revert c <;> decide

/-! ### Words put together again -/

/-- Three runs of bits that follow one another are one run. -/
theorem append_extract_three {k a n m s p q : Nat} (w : BitVec k) (hp : p = s + m) (hq : q = p + n) :
    w.extractLsb' q a ++ w.extractLsb' p n ++ w.extractLsb' s m = w.extractLsb' s (a + n + m) := by
  rw [BitVec.extractLsb'_append_extractLsb'_eq_extractLsb' hq,
    BitVec.extractLsb'_append_extractLsb'_eq_extractLsb' hp]

/-- A word is its high bits, those between and its low bits, put together. -/
theorem append_extract_whole {a n m : Nat} (w : BitVec (a + n + m)) :
    w.extractLsb' (n + m) a ++ w.extractLsb' m n ++ w.extractLsb' 0 m = w := by
  rw [append_extract_three w (Nat.zero_add m).symm (Nat.add_comm n m), BitVec.extractLsb'_eq_self]

/-- A word in a format of one field, given how its opcode's commands are encoded: what it decodes to is well formed and
has that word. `read` is what the field names. -/
theorem encode_of_ofFormat {n m : Nat} {w : BitVec (8 + n + m)} {op : BitVec 8} {read : BitVec m → Option Instr}
    {enc : Instr → BitVec (8 + n + m)} {i : Instr} (opcode : (w.extractLsb' (n + m) 8).toNat = op.toNat)
    (encodes : ∀ field j, read field = some j → enc j = op ++ 0#n ++ field)
    (h : Decoded.ofFormat (w.extractLsb' m n == 0#n) (read (w.extractLsb' 0 m)) = .command i) :
    i.WellFormed = true ∧ enc i = w := by
  obtain ⟨mbz, named, wellFormed⟩ := Machine.Decoded.ofFormat_eq_command.1 h
  refine ⟨wellFormed, ?_⟩
  rw [encodes _ _ named, ← BitVec.eq_of_toNat_eq opcode, ← eq_of_beq mbz, append_extract_whole]

/-! ### One rule per format (30_encoding.md R111) -/

section
variable {w : BitVec 32} {i : Instr}

theorem encode_of_decodeF0 {j : Instr} {op : BitVec 8} (opcode : (w.extractLsb' 24 8).toNat = op.toNat)
    (encodes : encode j = op ++ 0#24) (h : decodeF0 w j = .command i) : i.WellFormed = true ∧ encode i = w := by
  obtain ⟨mbz, ⟨⟩, wellFormed⟩ := Machine.Decoded.ofFormat_eq_command.1 h
  exact ⟨wellFormed, encodes.trans (Machine.word_of_opcode opcode (eq_of_beq mbz)).symm⟩

theorem encode_of_decodeFG {f : BitVec 6 → Instr} {op : BitVec 8} (opcode : (w.extractLsb' 24 8).toNat = op.toNat)
    (encodes : ∀ cnt, encode (f cnt) = op ++ 0#18 ++ cnt) (h : decodeFG w f = .command i) :
    i.WellFormed = true ∧ encode i = w := by
  refine encode_of_ofFormat (n := 18) (enc := encode) (read := fun cnt => some (f cnt)) opcode ?_ h
  rintro cnt _ ⟨⟩
  exact encodes cnt

theorem encode_of_decodeFQ {f : Order → Instr} {op : BitVec 8} (opcode : (w.extractLsb' 24 8).toNat = op.toNat)
    (encodes : ∀ ord, encode (f ord) = op ++ 0#21 ++ ord.code) (h : decodeFQ w f = .command i) :
    i.WellFormed = true ∧ encode i = w := by
  refine encode_of_ofFormat (n := 21) (enc := encode) (read := fun c => (Order.ofCode c).map f) opcode ?_ h
  intro c j named
  obtain ⟨ord, code, rfl⟩ := Option.map_eq_some_iff.1 named
  rw [encodes, Order.code_of_ofCode code]

theorem encode_of_decodeFR {f : Sel → Instr} {op : BitVec 8} (opcode : (w.extractLsb' 24 8).toNat = op.toNat)
    (encodes : ∀ sel, encode (f sel) = op ++ 0#22 ++ sel.code) (h : decodeFR w f = .command i) :
    i.WellFormed = true ∧ encode i = w := by
  refine encode_of_ofFormat (n := 22) (enc := encode) (read := fun c => (Sel.ofCode c).map f) opcode ?_ h
  intro c j named
  obtain ⟨sel, code, rfl⟩ := Option.map_eq_some_iff.1 named
  rw [encodes, Sel.code_of_ofCode code]

theorem encode_of_decodeFS {f : BitVec 12 → Instr} {op : BitVec 8} (opcode : (w.extractLsb' 24 8).toNat = op.toNat)
    (encodes : ∀ sym, encode (f sym) = op ++ 0#12 ++ sym) (h : decodeFS w f = .command i) :
    i.WellFormed = true ∧ encode i = w := by
  refine encode_of_ofFormat (n := 12) (enc := encode) (read := fun sym => some (f sym)) opcode ?_ h
  rintro sym _ ⟨⟩
  exact encodes sym

theorem encode_of_decodeFT {f : BitVec 8 → Instr} {op : BitVec 8} (opcode : (w.extractLsb' 24 8).toNat = op.toNat)
    (encodes : ∀ slot, encode (f slot) = op ++ 0#16 ++ slot) (h : decodeFT w f = .command i) :
    i.WellFormed = true ∧ encode i = w := by
  refine encode_of_ofFormat (n := 16) (enc := encode) (read := fun slot => some (f slot)) opcode ?_ h
  rintro slot _ ⟨⟩
  exact encodes slot

/-- Format FF has two fields and two runs of must-be-zero bits. -/
theorem encode_of_decodeFF {f : Tag → Order → Instr} {op : BitVec 8}
    (opcode : (w.extractLsb' 24 8).toNat = op.toNat)
    (encodes : ∀ tag ord, encode (f tag ord) = op ++ 0#13 ++ tag.code ++ 0#5 ++ ord.code)
    (h : decodeFF w f = .command i) : i.WellFormed = true ∧ encode i = w := by
  obtain ⟨mbz, named, wellFormed⟩ := Machine.Decoded.ofFormat_eq_command.1 h
  obtain ⟨mbzHigh, mbzLow⟩ := Bool.and_eq_true_iff.1 mbz
  obtain ⟨tag, tagCode, named⟩ := Option.bind_eq_some_iff.1 named
  obtain ⟨ord, ordCode, rfl⟩ := Option.map_eq_some_iff.1 named
  have upper : w.extractLsb' 24 8 ++ w.extractLsb' 11 13 ++ w.extractLsb' 8 3 = w.extractLsb' 8 24 :=
    append_extract_three (a := 8) (n := 13) (m := 3) w rfl rfl
  have whole : w.extractLsb' 8 24 ++ w.extractLsb' 3 5 ++ w.extractLsb' 0 3 = w :=
    append_extract_whole (a := 24) (n := 5) (m := 3) w
  refine ⟨wellFormed, ?_⟩
  rw [encodes, Tag.code_of_ofCode tagCode, Order.code_of_ofCode ordCode, ← BitVec.eq_of_toNat_eq opcode,
    ← eq_of_beq mbzHigh, ← eq_of_beq mbzLow, upper, whole]

end

/-! ### The opcode map (30_encoding.md R118, R119) -/

/-- What a word decodes to is well formed and has that word: each opcode's commands are encoded in its format. -/
theorem encode_of_decode {w : BitVec 32} {i : Instr} (h : decode w = .command i) :
    i.WellFormed = true ∧ encode i = w := by
  unfold decode at h
  split at h
  case h_1 opcode => exact encode_of_decodeF0 (op := 0x00#8) opcode rfl h
  case h_2 opcode => exact encode_of_decodeF0 (op := 0x01#8) opcode rfl h
  case h_3 opcode => exact encode_of_decodeF0 (op := 0x02#8) opcode rfl h
  case h_4 opcode => exact encode_of_decodeF0 (op := 0x10#8) opcode rfl h
  case h_5 opcode => exact encode_of_decodeFG (op := 0x11#8) opcode (fun _ => rfl) h
  case h_6 opcode => exact encode_of_decodeF0 (op := 0x12#8) opcode rfl h
  case h_7 opcode => exact encode_of_decodeFQ (op := 0x20#8) opcode (fun _ => rfl) h
  case h_8 opcode => exact encode_of_decodeFF (op := 0x21#8) opcode (fun _ _ => rfl) h
  case h_9 opcode => exact encode_of_decodeFR (op := 0x30#8) opcode (fun _ => rfl) h
  case h_10 opcode => exact encode_of_decodeFR (op := 0x31#8) opcode (fun _ => rfl) h
  case h_11 opcode => exact encode_of_decodeFS (op := 0x40#8) opcode (fun _ => rfl) h
  case h_12 opcode => exact encode_of_decodeFT (op := 0x41#8) opcode (fun _ => rfl) h
  case h_13 opcode => exact encode_of_decodeF0 (op := 0x42#8) opcode rfl h
  case h_14 => cases h

/-- The thirteen opcodes of the map. -/
def opcodes : List Nat := [0x00, 0x01, 0x02, 0x10, 0x11, 0x12, 0x20, 0x21, 0x30, 0x31, 0x40, 0x41, 0x42]

/-- A word of the map is read in some format; a word with another opcode is reserved. -/
theorem decode_format_or_reserved (w : BitVec 32) :
    ((w.extractLsb' 24 8).toNat ∈ opcodes ∧ ∃ mbz i?, decode w = .ofFormat mbz i?)
      ∨ ((w.extractLsb' 24 8).toNat ∉ opcodes ∧ decode w = .illegal .reservedOpcode) := by
  unfold decode
  split
  case h_14 =>
    refine .inr ⟨?_, rfl⟩
    simp only [opcodes, List.mem_cons, List.not_mem_nil, or_false, not_or]
    exact ⟨‹_›, ‹_›, ‹_›, ‹_›, ‹_›, ‹_›, ‹_›, ‹_›, ‹_›, ‹_›, ‹_›, ‹_›, ‹_›⟩
  all_goals
    rename_i opcode
    exact .inl ⟨by rw [opcode]; decide, _, _, rfl⟩

/-- A word read in a format is not reserved, whatever else is wrong with it (30_encoding.md R112). -/
theorem Decoded.ofFormat_ne_reserved (mbz : Bool) (i? : Option Instr) :
    Decoded.ofFormat mbz i? ≠ .illegal .reservedOpcode := by
  unfold Decoded.ofFormat Decoded.ofFields
  split
  · split
    · split <;> simp
    · simp
  · simp

end Sys2Proof

namespace Sys2Proof.Machine

/-- The engine's turn on a word that is no command (60_exceptions.md R302, R304). -/
theorem engineTurn_illegal {s : State} {w : BitVec 32} {why : Illegal} (hp : s.pending = some w)
    (hd : decode w = .illegal why) : engineTurn s = .next (s.raise .illegalCmd).complete := by
  simp [engineTurn, engineStep, hp, hd, finish]

end Sys2Proof.Machine

open Sys2Proof Sys2Proof.Machine

/-- Settles O2, by reading each format's fields back from the encoded word. -/
theorem decodeEncode : Obligations.DecodeEncode :=
  fun _ wellFormed => decode_encode wellFormed

/-- Settles O3, by putting the word together again, opcode by opcode. -/
theorem encodeDecode : Obligations.EncodeDecode :=
  fun _ _ h => encode_of_decode h

/-- Settles O4: a format may refuse a word, but not as reserved. -/
theorem reservedOpcodesRefused : Obligations.ReservedOpcodesRefused := by
  intro w
  rcases decode_format_or_reserved w with ⟨mapped, mbz, i?, format⟩ | ⟨unmapped, reserved⟩
  · exact iff_of_false (format ▸ Decoded.ofFormat_ne_reserved mbz i?) (not_not_intro mapped)
  · exact iff_of_true reserved unmapped

/-- Settles O5: the engine's turn raises ILLEGAL_CMD and completes. -/
theorem illegalCommandReports : Obligations.IllegalCommandReports := by
  intro s w why moves pending illegal
  rw [step_engine moves, engineTurn_illegal (s := s.popTurn) pending illegal]
  rfl

/-- Settles O1: each of the seven words is the encoding of its command. -/
theorem opcodeMapWords : Obligations.OpcodeMapWords :=
  ⟨decode_encode (i := .nop) rfl, decode_encode (i := .prbsGen 32#6) rfl, decode_encode (i := .qamMap .qam256) rfl,
    decode_encode (i := .qamFill .dmrs .qpsk) rfl, decode_encode (i := .rsGen .raw) rfl,
    decode_encode (i := .ofdmSym 140#12) rfl, decode_encode (i := .ofdmSlot 1#8) rfl⟩

end

section
/-! PROOFS. CFG_APPLY, NOP and GRID_CLEAR (40_config.md): the order of the checks, what success latches and failure
clears, and the reconciled CP length of each symbol. -/

namespace Sys2Proof.Machine

/-! ### The checks -/

/-- One check of a chain: failing it decides the outcome, passing it leaves the outcome to the rest of the chain. -/
theorem first_check {fails bad good later : Prop} [Decidable fails] {outcome error rest : Option CmdError}
    (chain : outcome = if fails then error else rest) (means : fails ↔ bad) (passes : good → ¬ bad)
    (next : outcome = rest → later) : (bad → outcome = error) ∧ (good → later) :=
  ⟨fun h => chain.trans (if_pos (means.2 h)), fun h => next (chain.trans (if_neg (mt means.1 (passes h))))⟩

/-- The two illegal CP codes are those from 2 up (10_state.md R38). -/
theorem cpIllegal_iff (cp : BitVec 2) : (cp = 2 ∨ cp = 3) ↔ 2 ≤ cp.toNat := by bv_omega

theorem not_isPow2_iff (n : Nat) : isPow2 n = false ↔ ¬ ∃ k, n = 2 ^ k := by
  rw [← isPow2_iff, Bool.not_eq_true]

/-- The errors CFG_APPLY reports are eight, with the codes 0x01 to 0x08 (60_exceptions.md R300). -/
theorem firstError_code {lim : Limits} {c : StagedConfig} {e : CmdError} (h : c.firstError lim = some e) :
    (e, e.code) ∈ [(CmdError.cfgCpInvalid, 0x01#8), (.cfgCellRange, 0x02#8), (.cfgMuRange, 0x03#8),
      (.cfgCpMismatch, 0x04#8), (.cfgFsNotInteger, 0x05#8), (.cfgNfftSmall, 0x06#8), (.cfgNfftLimit, 0x07#8),
      (.cfgNrbRange, 0x08#8)] := by
  obtain ⟨check, found, rfl⟩ := Option.map_eq_some_iff.1 h
  have listed : check.2 ∈ (c.checks lim).map (·.2) := List.mem_map_of_mem (List.mem_of_find?_eq_some found)
  exact (by decide : ∀ e ∈ [CmdError.cfgCpInvalid, .cfgCellRange, .cfgMuRange, .cfgCpMismatch, .cfgNrbRange,
    .cfgFsNotInteger, .cfgNfftSmall, .cfgNfftLimit, .cfgNrbRange], (e, e.code) ∈ _) _ listed

/-! ### The commands -/

/-- CFG_APPLY on a configuration it accepts (40_config.md R152). -/
theorem exec_cfgApply_accepted {s : State} (h : s.cfg.Accepted) : exec .cfgApply s
    = .next { s with cfgValid := true, eff := s.cfg.derive, grid := [], out := [] } := by
  show Host.Outcome.next (s.applyConfig Config.limits) = _
  unfold State.applyConfig
  rw [h]

/-- CFG_APPLY on a configuration it refuses (40_config.md R153). -/
theorem exec_cfgApply_refused {s : State} {e : CmdError} (h : s.cfg.firstError Config.limits = some e) :
    exec .cfgApply s = .next (s.failConfig e) := by
  show Host.Outcome.next (s.applyConfig Config.limits) = _
  unfold State.applyConfig
  rw [h]

/-- GRID_CLEAR with a configuration (40_config.md R156). -/
theorem exec_gridClear_valid {s : State} (h : s.cfgValid = true) :
    exec .gridClear s = .next { s with grid := [] } := by
  show s.settle (s.needConfig (.ok { s with grid := [] })) = _
  rw [State.needConfig_of_valid h, State.settle_ok]

/-! ### The latched registers -/

/-- The IDFT size is within P_NFFT_MAX (40_config.md R145, R146). -/
theorem StagedConfig.Accepted.nFftOf_le {c : StagedConfig} (h : c.Accepted) : c.nFftOf ≤ Config.nfftMax := by
  unfold StagedConfig.Accepted at h
  rw [firstError_eq] at h
  split_ifs at h with hcp hcell hmu hmix hnrb hfs hsmall hlimit
  exact not_lt.1 fun tooLarge => hlimit (.inr tooLarge)

/-- An override is a nonzero CFG_NFFT (40_config.md R145). -/
theorem StagedConfig.nFftOf_eq (c : StagedConfig) :
    c.nFftOf = if c.nfft.toNat = 0 then nextPow2 c.nUsefulOf else c.nfft.toNat :=
  if_congr BitVec.toNat_eq rfl rfl

theorem StagedConfig.ifNormal_le (c : StagedConfig) (n : Nat) : c.ifNormal n ≤ n := by
  unfold StagedConfig.ifNormal
  split <;> omega

theorem StagedConfig.ifNormal_extended {c : StagedConfig} (extended : c.cp ≠ 0) (n : Nat) : c.ifNormal n = 0 :=
  if_neg extended

/-- A register that latches a value for normal CP holds that value, if the register is wide enough for it. -/
theorem StagedConfig.toNat_ifNormal (c : StagedConfig) {n : Nat} (small : n < 2 ^ 32) :
    (BitVec.ofNat 32 (c.ifNormal n)).toNat = c.ifNormal n :=
  Nat.mod_eq_of_lt ((c.ifNormal_le n).trans_lt small)

theorem StagedConfig.derive_scsHz (c : StagedConfig) : c.derive.scsHz.toNat = 15000 * 2 ^ c.mu.toNat := by
  have : 2 ^ c.mu.toNat ≤ 2 ^ 7 := Nat.pow_le_pow_right (by omega) (by have := c.mu.isLt; omega)
  exact Nat.mod_eq_of_lt (by unfold StagedConfig.deltaF; omega)

theorem StagedConfig.Accepted.derive_slotsPerSubframe {c : StagedConfig} (h : c.Accepted) :
    c.derive.slotsPerSubframe.toNat = 2 ^ c.mu.toNat :=
  Nat.mod_eq_of_lt ((Nat.pow_le_pow_right (by omega) h.mu_fs.1).trans_lt (by decide : 2 ^ 4 < 2 ^ 5))

theorem StagedConfig.Accepted.derive_nFft {c : StagedConfig} (h : c.Accepted) : c.derive.nFft.toNat = c.nFftOf :=
  Nat.mod_eq_of_lt (by have := h.nFftOf_le; have := nfftMax_bounds; omega)

theorem StagedConfig.derive_cpShort (c : StagedConfig) :
    c.derive.cpShort.toNat = c.ifNormal (cpShortOf c.nUsefulOf) :=
  c.toNat_ifNormal (by have := rounded_bounds c.nUsefulOf; have := c.nUsefulOf_lt; omega)

theorem StagedConfig.derive_cpLong (c : StagedConfig) : c.derive.cpLong.toNat = c.ifNormal (cpLongOf c.nUsefulOf) :=
  c.toNat_ifNormal (by have := rounded_bounds c.nUsefulOf; have := c.nUsefulOf_lt; omega)

/-- For either CP type; `derive_slotSamples` has the value of normal CP. -/
theorem StagedConfig.Accepted.derive_slotSamples_ifNormal {c : StagedConfig} (h : c.Accepted) :
    c.derive.slotSamples.toNat = c.ifNormal (15 * c.nUsefulOf) := by
  rw [← h.slotSamples_eq]
  exact c.toNat_ifNormal c.slotSamplesOf_lt

/-- For either CP type; `derive_totalSamples` has the value of normal CP. -/
theorem StagedConfig.Accepted.derive_totalSamples_ifNormal {c : StagedConfig} (h : c.Accepted) :
    c.derive.totalSamples.toNat = c.ifNormal (c.totalSlotsOf * (15 * c.nUsefulOf)) := by
  rw [← h.slotSamples_eq]
  by_cases normal : c.cp = 0
  · rw [h.derive_totalSamples normal, StagedConfig.ifNormal_eq normal]
  · simp only [StagedConfig.derive, StagedConfig.ifNormal_extended normal]
    rfl

/-- CFG_APPLY latches fourteen CP lengths (10_state.md R44). -/
theorem StagedConfig.derive_cpLen_length (c : StagedConfig) : c.derive.cpLen.length = 14 := by
  show c.cpLenOf.length = 14
  unfold StagedConfig.cpLenOf
  split
  · rw [List.length_map, reconcile_length]
  · exact List.length_replicate

/-- Extended CP latches every CP length as 0 (40_config.md R147). -/
theorem StagedConfig.derive_cpLenAt_extended {c : StagedConfig} (extended : c.cp ≠ 0) (i : Nat) :
    c.derive.cpLenAt i = 0 := by
  have zeros : c.derive.cpLen = List.replicate 14 0#32 := if_neg extended
  have zero : (List.replicate 14 0#32).getD i 0 = 0#32 := by
    rw [List.getD_eq_getElem?_getD, List.getElem?_replicate]
    split <;> rfl
  unfold EffectiveConfig.cpLenAt
  rw [zeros, zero]
  rfl

/-! ### The CP length of one symbol -/

/-- The rounded lengths, with the set LS of 40_config.md R148 written out. -/
theorem cpRounded_eq_map (mu n : Nat) : cpRounded mu n = (List.range 14).map fun i =>
    if i = 0 ∨ (mu = 0 ∧ i = 7) then (cpLongOf n : Int) else cpShortOf n := by
  refine List.map_congr_left fun i _ => if_congr ?_ rfl rfl
  unfold longSymbols
  split <;> simp [*]

theorem cpRounded_getD {mu n i : Nat} (hi : i < 14) : (cpRounded mu n).getD i 0
    = if i = 0 ∨ (mu = 0 ∧ i = 7) then (cpLongOf n : Int) else cpShortOf n := by
  rw [cpRounded_eq_map, List.getD_eq_getElem _ _ (by simpa using hi), List.getElem_map, List.getElem_range]

/-- The order ADD, written out (40_config.md R151). -/
theorem addOrder_eq (mu : Nat) : addOrder mu = if mu = 0 then [0, 7, 1, 2, 3, 4, 5, 6, 8, 9, 10, 11, 12, 13]
    else [0, 1, 2, 3, 4, 5, 6, 7, 8, 9, 10, 11, 12, 13] := by
  unfold addOrder shortSymbols longSymbols
  split <;> rfl

/-- The order REM, written out (40_config.md R151). -/
theorem removeOrder_eq (mu : Nat) : removeOrder mu = if mu = 0 then [13, 12, 11, 10, 9, 8, 6, 5, 4, 3, 2, 1, 7, 0]
    else [13, 12, 11, 10, 9, 8, 7, 6, 5, 4, 3, 2, 1, 0] := by
  unfold removeOrder shortSymbols longSymbols
  split <;> rfl

/-- Different places of ADD, and of REM, name different symbols. -/
theorem orders_injective (mu : Nat) :
    (∀ p < 14, ∀ q < 14, (addOrder mu).getD p 0 = (addOrder mu).getD q 0 → p = q)
      ∧ ∀ p < 14, ∀ q < 14, (removeOrder mu).getD p 0 = (removeOrder mu).getD q 0 → p = q := by
  rw [addOrder_eq, removeOrder_eq]
  split <;> decide

/-- Of the turns 0 to `n - 1`, every fourteenth from `p` on falls on place `p`. -/
theorem countP_turns (n : Nat) {p : Nat} (hp : p < 14) :
    (List.range n).countP (fun t => t % 14 == p) = (n + 13 - p) / 14 := by
  induction n with
  | zero => exact (Nat.div_eq_of_lt (by omega)).symm
  | succ n ih =>
    rw [List.range_succ, List.countP_append, ih, List.countP_singleton]
    split
    next turn => rw [beq_iff_eq] at turn; omega
    next other => rw [beq_iff_eq] at other; omega

/-- A round robin in an order without repetition moves the symbol at place `p` once in fourteen turns. -/
theorem roundRobin_at_place {order : List Nat} {cp : List Int} (δ : Int) (n : Nat) {p : Nat} (hp : p < 14)
    (inSlot : order.getD p 0 < cp.length)
    (injective : ∀ p < 14, ∀ q < 14, order.getD p 0 = order.getD q 0 → p = q) :
    (roundRobin order δ n cp).getD (order.getD p 0) 0
      = cp.getD (order.getD p 0) 0 + δ * ((n + 13 - p) / 14 : Nat) := by
  have place : ∀ t, (order.getD (t % 14) 0 == order.getD p 0) = (t % 14 == p) := fun t =>
    Bool.eq_iff_iff.2 (by
      rw [beq_iff_eq, beq_iff_eq]
      exact ⟨injective _ (Nat.mod_lt _ (by omega)) _ hp, fun same => by rw [same]⟩)
  rw [roundRobin_getD _ _ _ _ _ inSlot]
  simp only [place, countP_turns n hp]

/-- Each CP length is at most the useful samples, since the fourteen together are. -/
theorem reconcile_le (mu n : Nat) : ∀ c ∈ reconcile mu n (15 * n), c ≤ n := by
  intro c hc
  have total := List.single_le_sum (reconcile_nonneg mu n) c hc
  rw [reconcile_sum] at total
  omega

/-- A surplus gives the symbol at place `p` of ADD one sample for each turn at `p` (40_config.md R151). -/
theorem reconcile_surplus {mu n slotSamples p : Nat} (surplus : 0 ≤ cpExcess slotSamples n (cpRounded mu n))
    (hp : p < 14) : (reconcile mu n slotSamples).getD ((addOrder mu).getD p 0) 0
      = (cpRounded mu n).getD ((addOrder mu).getD p 0) 0
        + (cpExcess slotSamples n (cpRounded mu n) + 13 - p) / 14 := by
  have inSlot : (addOrder mu).getD p 0 < (cpRounded mu n).length := by
    rw [cpRounded_length]; exact (orders_in_slot mu).1 p hp
  obtain ⟨-, result⟩ | ⟨deficit, -⟩ := reconcile_cases mu n slotSamples
  · rw [result, roundRobin_at_place _ _ hp inSlot (orders_injective mu).1]
    omega
  · omega

/-- A deficit takes of the symbol at place `p` of REM one sample for each turn at `p` (40_config.md R151). -/
theorem reconcile_deficit {mu n slotSamples p : Nat} (deficit : cpExcess slotSamples n (cpRounded mu n) < 0)
    (hp : p < 14) : (reconcile mu n slotSamples).getD ((removeOrder mu).getD p 0) 0
      = (cpRounded mu n).getD ((removeOrder mu).getD p 0) 0
        - (-cpExcess slotSamples n (cpRounded mu n) + 13 - p) / 14 := by
  have inSlot : (removeOrder mu).getD p 0 < (cpRounded mu n).length := by
    rw [cpRounded_length]; exact (orders_in_slot mu).2 p hp
  obtain ⟨surplus, -⟩ | ⟨-, result⟩ := reconcile_cases mu n slotSamples
  · omega
  · rw [result, roundRobin_at_place _ _ hp inSlot (orders_injective mu).2]
    omega

end Sys2Proof.Machine

open Sys2Proof Sys2Proof.Machine

/-- Settles O32, check by check down the chain of `firstError_eq`. -/
theorem cfgCheckOrder : Obligations.CfgCheckOrder := by
  intro lim c mu n fft hmu hn hfft e
  subst hmu hn hfft
  have mismatch : c.cp = 1 ∧ c.mu ≠ 2 ↔ c.cp = 1 ∧ c.mu.toNat ≠ 2 := and_congr_right' (not_congr BitVec.toNat_eq)
  have noPower : c.nfft ≠ 0 ∧ isPow2 c.nfft.toNat = false ↔ c.nfft ≠ 0 ∧ ¬ ∃ k, c.nfft.toNat = 2 ^ k :=
    and_congr_right' (not_isPow2_iff _)
  refine first_check (firstError_eq lim c) (cpIllegal_iff c.cp) not_le_of_gt fun chain => ?_
  refine first_check chain .rfl not_lt_of_ge fun chain => ?_
  refine first_check chain .rfl not_lt_of_ge fun chain => ?_
  refine first_check chain mismatch (fun ok bad => bad.2 (ok bad.1)) fun chain => ?_
  refine first_check chain .rfl (fun ok bad => bad.elim ok.1 (not_lt_of_ge ok.2)) fun chain => ?_
  refine first_check chain .rfl (fun ok bad => bad.elim ok.1 (· ok.2)) fun chain => ?_
  refine first_check chain .rfl (fun ok bad => not_lt_of_ge (ok bad.1) bad.2) fun chain => ?_
  refine first_check chain (or_congr_left noPower)
    (fun ok bad => bad.elim (fun odd => odd.2 (ok.1 odd.1)) (not_lt_of_ge ok.2)) fun chain => ?_
  exact first_check chain .rfl not_lt_of_ge id

/-- Settles O30: the premises pass every check of `cfgCheckOrder`, and no latched register is truncated. -/
theorem cfgApplySucceeds : Obligations.CfgApplySucceeds := by
  intro s mu fs nrb nfft n fft hmu hfs hnrb hnfft hn hfft cp cell numerology mix nrbLow nrbHigh fsPos fsWhole
    override limit fits
  subst hmu hfs hnrb hnfft
  have nUseful : s.cfg.nUsefulOf = n := hn.symm
  have nFft : s.cfg.nFftOf = fft := by rw [s.cfg.nFftOf_eq, nUseful, hfft]
  have noOverride : s.cfg.nfft = 0 ↔ s.cfg.nfft.toNat = 0 := BitVec.toNat_eq
  have cpLegal : s.cfg.cp.toNat < 2 := by rcases cp with normal | extended <;> simp only [*] <;> decide
  have hasBlocks : s.cfg.nrb ≠ 0 := fun zero => by simp [zero] at nrbLow
  have hasRate : s.cfg.fs ≠ 0 := fun zero => fsPos (by rw [zero]; rfl)
  have covers : s.cfg.nfft ≠ 0 → n ≤ s.cfg.nfft.toNat ∧ ∃ k, s.cfg.nfft.toNat = 2 ^ k :=
    fun given => override.resolve_left (mt noOverride.2 given)
  have accepted : s.cfg.Accepted := by
    obtain ⟨-, order⟩ := cfgCheckOrder Config.limits s.cfg _ n s.cfg.nFftOf rfl hn (by rw [← nUseful]; rfl)
    obtain ⟨-, order⟩ := order cpLegal
    obtain ⟨-, order⟩ := order cell
    obtain ⟨-, order⟩ := order numerology
    obtain ⟨-, order⟩ := order mix
    obtain ⟨-, order⟩ := order ⟨hasBlocks, nrbHigh⟩
    obtain ⟨-, order⟩ := order ⟨hasRate, fsWhole⟩
    obtain ⟨-, order⟩ := order fun given => (covers given).1
    obtain ⟨-, order⟩ := order ⟨fun given => (covers given).2, nFft.trans_le limit⟩
    exact order fits
  rw [← nUseful, ← nFft]
  exact ⟨_, exec_cfgApply_accepted accepted, rfl, ⟨rfl, rfl, rfl, rfl, rfl⟩,
    ⟨s.cfg.derive_scsHz, accepted.derive_slotsPerSubframe, s.cfg.derive_symsPerSlot, s.cfg.derive_nUseful,
      accepted.derive_nFft, s.cfg.derive_nSubcarriers, accepted.derive_totalSlots, accepted.derive_totalSymbols⟩,
    ⟨s.cfg.derive_cpShort, s.cfg.derive_cpLong, accepted.derive_slotSamples_ifNormal,
      accepted.derive_totalSamples_ifNormal⟩,
    ⟨s.cfg.derive_cpLen_length, StagedConfig.derive_cpLenAt_extended,
      fun normal => StagedConfig.derive_cpLenAt accepted normal⟩,
    fun _ _ => rfl, fun _ => rfl⟩

/-- Settles O31: the error is one of the eight, and nothing exists without CFG_VALID. -/
theorem cfgApplyFails : Obligations.CfgApplyFails :=
  fun _ e h => ⟨e.code, firstError_code h, _, exec_cfgApply_refused h, rfl, fun _ _ => rfl, fun _ => rfl⟩

/-- Settles O33: the lengths make up the slot, none is negative, and a place of the order is met every fourteenth
turn. -/
theorem cpReconciliation : Obligations.CpReconciliation := by
  intro mu n cp rounded d add rem
  have roundedAt : ∀ {i}, i < 14 → (cpRounded mu n).getD i 0 = rounded i := cpRounded_getD
  have surplus_eq : cpExcess (15 * n) n (cpRounded mu n) = d := by
    rw [cpExcess, cpRounded_eq_map, List.map_map]
    push_cast
    rfl
  have total : (cp.map fun c => (n : Int) + c).sum = 15 * n := by
    rw [sum_map_const_add, reconcile_length, reconcile_sum]
    push_cast
    ring
  refine ⟨⟨reconcile_length .., total, fun c hc => ⟨reconcile_nonneg mu n c hc, reconcile_le mu n c hc⟩⟩, ?_⟩
  intro p hp
  obtain ⟨addsInSlot, removesInSlot⟩ := orders_in_slot mu
  rw [show add = addOrder mu from (addOrder_eq mu).symm, show rem = removeOrder mu from (removeOrder_eq mu).symm,
    ← surplus_eq, ← roundedAt (addsInSlot p hp), ← roundedAt (removesInSlot p hp)]
  exact ⟨fun surplus => reconcile_surplus surplus hp, fun deficit => reconcile_deficit deficit hp⟩

/-- Settles O37: GRID becomes the empty list, which reads blank everywhere. -/
theorem gridClearEmptiesGrid : Obligations.GridClearEmptiesGrid :=
  fun _ valid => ⟨_, exec_gridClear_valid valid, fun _ _ => rfl, rfl⟩

/-- Settles O36: the zero word is NOP, and the engine's turn completes it. -/
theorem nopChangesNothing : Obligations.NopChangesNothing := by
  refine fun s => ⟨rfl, fun moves pending => ?_⟩
  have isNop : decode 0x00000000#32 = .command .nop := decode_encode (i := .nop) rfl
  rw [step_engine moves, engineTurn_command (s := s.popTurn) pending isNop rfl]
  rfl

end

section
/-! PROOFS. The Gold-sequence generator (41_prbs.md R180 to R187): windows that stand on the sequences and stay on them
step by step, and what PRBS_SEED, PRBS_GEN and PRBS_SKIP do to the PRBS registers. -/

namespace Sys2Proof.Machine

/-! ### The sequences and the windows onto them -/

theorem goldX1_add_31 (n : Nat) : goldX1 (n + 31) = (goldX1 (n + 3) ^^ goldX1 n) := by
  rw [goldX1]

theorem goldX2_add_31 (c : BitVec 31) (n : Nat) :
    goldX2 c (n + 31) = (goldX2 c (n + 3) ^^ goldX2 c (n + 2) ^^ goldX2 c (n + 1) ^^ goldX2 c n) := by
  rw [goldX2]

/-- The first 31 indices of x1: the recursion does not reach them (41_prbs.md R180). -/
theorem goldX1_of_lt {n : Nat} (h : n < 31) : goldX1 n = (n == 0) := by
  rw [goldX1]
  rintro k rfl
  omega

/-- The first 31 indices of x2 are the seed (41_prbs.md R180). -/
theorem goldX2_of_lt (c : BitVec 31) {n : Nat} (h : n < 31) : goldX2 c n = c.getLsbD n := by
  rw [goldX2]
  rintro k rfl
  omega

theorem stepWindows_x1_getLsbD (w : Windows) {i : Nat} (h : i < 31) : (stepWindows w).x1.getLsbD i
    = if i = 30 then w.x1.getLsbD 3 ^^ w.x1.getLsbD 0 else w.x1.getLsbD (i + 1) :=
  shiftIn_getLsbD _ _ i h

theorem stepWindows_x2_getLsbD (w : Windows) {i : Nat} (h : i < 31) : (stepWindows w).x2.getLsbD i
    = if i = 30 then w.x2.getLsbD 3 ^^ w.x2.getLsbD 2 ^^ w.x2.getLsbD 1 ^^ w.x2.getLsbD 0
      else w.x2.getLsbD (i + 1) :=
  shiftIn_getLsbD _ _ i h

/-- The windows hold the 31 values of x1 and x2 from index `m` on (41_prbs.md R182). -/
def Windows.At (c : BitVec 31) (m : Nat) (w : Windows) : Prop :=
  (∀ i, i < 31 → w.x1.getLsbD i = goldX1 (m + i)) ∧ (∀ i, i < 31 → w.x2.getLsbD i = goldX2 c (m + i))

theorem Windows.at_zero_seed (c : BitVec 31) : Windows.At c 0 ⟨1#31, c⟩ := by
  refine ⟨fun i hi => ?_, fun i hi => ?_⟩
  · rw [Nat.zero_add, goldX1_of_lt hi, BitVec.getLsbD_one]
    exact (beq_eq_decide i 0).symm
  · rw [Nat.zero_add, goldX2_of_lt c hi]

/-- A step stays on the sequences: the entering bit is the recurrence at `m` (41_prbs.md R180, R182). -/
theorem Windows.At.step {c : BitVec 31} {m : Nat} {w : Windows} (h : w.At c m) :
    (stepWindows w).At c (m + 1) := by
  obtain ⟨onX1, onX2⟩ := h
  refine ⟨fun i hi => ?_, fun i hi => ?_⟩
  · rw [stepWindows_x1_getLsbD w hi]
    split
    next top =>
      rw [top, onX1 3 (by omega), onX1 0 (by omega), Nat.add_right_comm]
      exact (goldX1_add_31 m).symm
    next low => rw [onX1 (i + 1) (by omega), Nat.add_right_comm, Nat.add_assoc]
  · rw [stepWindows_x2_getLsbD w hi]
    split
    next top =>
      rw [top, onX2 3 (by omega), onX2 2 (by omega), onX2 1 (by omega), onX2 0 (by omega), Nat.add_right_comm]
      exact (goldX2_add_31 c m).symm
    next low => rw [onX2 (i + 1) (by omega), Nat.add_right_comm, Nat.add_assoc]

theorem Windows.At.advance {c : BitVec 31} {m : Nat} {w : Windows} (h : w.At c m) (k : Nat) :
    (advance k w).At c (m + k) := by
  induction k generalizing m w with
  | zero => exact h
  | succ k ih =>
    rw [advance_succ, Nat.add_comm k, ← Nat.add_assoc]
    exact ih h.step

/-- The bit of windows Nc + `n` on is c(n) (41_prbs.md R180). -/
theorem Windows.At.bit_eq_goldBit {c : BitVec 31} {n : Nat} {w : Windows} (h : w.At c (goldOffset + n)) :
    w.bit = goldBit c n := by
  obtain ⟨onX1, onX2⟩ := h
  rw [Windows.bit, goldBit, onX1 0 (by omega), onX2 0 (by omega), Nat.add_zero, Nat.add_comm]

/-- Zero windows feed zeros back (41_prbs.md R183). -/
theorem advance_zeroWindows (n : Nat) : advance n ⟨0, 0⟩ = ⟨0, 0⟩ := by
  induction n with
  | zero => rfl
  | succ n ih => rw [advance_succ, show stepWindows ⟨0, 0⟩ = ⟨0, 0⟩ by decide, ih]

theorem packBits_zeroWindows (n : Nat) : packBits n ⟨0, 0⟩ = 0 :=
  Nat.eq_of_testBit_eq fun j => by
    rw [Nat.zero_testBit]
    rcases lt_or_ge j n with inside | beyond
    · rw [packBits_testBit n _ j inside, advance_zeroWindows]
      rfl
    · exact Nat.testBit_lt_two_pow ((packBits_lt n _).trans_le (Nat.pow_le_pow_right Nat.two_pos beyond))

/-! ### The window onto x1 after Nc steps -/

/-- The window onto x1 after every 200 of the Nc steps from the value 1. -/
def x1Milestones : List (BitVec 31) :=
  [1#31, 0x48020820#31, 0x20C80488#31, 0x005A4808#31, 0x0812E8C8#31, 0x00924800#31, 0x124822C0#31, 0x0C20C84C#31,
    0x5E485840#31]

theorem advance_between_milestones :
    ∀ k < 8, advance 200 ⟨x1Milestones.getD k 0, 0⟩ = ⟨x1Milestones.getD (k + 1) 0, 0⟩ := by decide +kernel

theorem advance_to_milestone {k : Nat} (h : k ≤ 8) :
    advance (200 * k) ⟨1#31, 0⟩ = ⟨x1Milestones.getD k 0, 0⟩ := by
  induction k with
  | zero => rfl
  | succ k ih => rw [Nat.mul_succ, advance_add, ih (by omega), advance_between_milestones k (by omega)]

/-- Every seed starts with the same window onto x1 (41_prbs.md R187). -/
theorem seedWindows_x1 (c : BitVec 31) : (seedWindows c).x1 = 0x5E485840#31 := by
  rw [seedWindows, advance_x1 goldOffset 1#31 c 0, show goldOffset = 200 * 8 from rfl, advance_to_milestone le_rfl]
  rfl

/-! ### The PRBS registers under the commands -/

theorem exec_prbsSeed (s : State) :
    exec .prbsSeed s = .next { s with prbs := seededPrbs (s.arg0.extractLsb' 0 31) } := rfl

theorem exec_prbsGen (cnt : BitVec 6) (s : State) :
    exec (.prbsGen cnt) s = .next { s with prbs := s.prbs.generate cnt.toNat } := rfl

theorem exec_prbsSkip (s : State) :
    exec .prbsSkip s = .next { s with prbs := s.prbs.skip s.arg0.toNat } := rfl

@[simp] theorem PrbsRegs.windows_seeded (c : BitVec 31) : (seededPrbs c).windows = seedWindows c := by
  unfold seededPrbs PrbsRegs.windows
  generalize seedWindows c = w
  rfl

@[simp] theorem PrbsRegs.windows_generate (p : PrbsRegs) (n : Nat) :
    (p.generate n).windows = advance n p.windows := rfl

@[simp] theorem PrbsRegs.windows_skip (p : PrbsRegs) (n : Nat) : (p.skip n).windows = advance n p.windows := rfl

theorem PrbsRegs.seeded_x1 (c : BitVec 31) : (seededPrbs c).x1 = 0x5E485840#31 := by
  rw [seededPrbs, seedWindows_x1]

/-- PRBS_GEN with its window steps and its count as the register holds it (41_prbs.md R183). -/
theorem PrbsRegs.generate_eq (p : PrbsRegs) (cnt : BitVec 6) : p.generate cnt.toNat
    = { p with x1 := (stepWindows^[cnt.toNat] p.windows).x1, x2 := (stepWindows^[cnt.toNat] p.windows).x2
               pos := p.pos + cnt.setWidth 32, out := (p.generate cnt.toNat).out } := by
  rw [← advance_eq_iterate, ← BitVec.ofNat_toNat]
  rfl

/-- PRBS_SKIP with its window steps and its count as the register holds it (41_prbs.md R184). -/
theorem PrbsRegs.skip_eq (p : PrbsRegs) (k : BitVec 32) : p.skip k.toNat
    = { p with x1 := (stepWindows^[k.toNat] p.windows).x1, x2 := (stepWindows^[k.toNat] p.windows).x2
               pos := p.pos + k } := by
  rw [← advance_eq_iterate, PrbsRegs.skip, BitVec.ofNat_toNat, BitVec.setWidth_eq]

/-- Each bit of PRBS_OUT within the count is the bit its windows stand at; the others are 0 (41_prbs.md R183). -/
theorem PrbsRegs.generate_out_getLsbD (p : PrbsRegs) {n : Nat} (h : n ≤ 32) (j : Nat) :
    (p.generate n).out.getLsbD j = if j < n then (advance j p.windows).bit else false := by
  show (BitVec.ofNat 32 (packBits n p.windows)).getLsbD j = _
  rw [BitVec.getLsbD_ofNat]
  split
  next inside => rw [packBits_testBit n _ j inside, decide_eq_true (by omega), Bool.true_and]
  next beyond =>
    have small : packBits n p.windows < 2 ^ j :=
      (packBits_lt n _).trans_le (Nat.pow_le_pow_right Nat.two_pos (by omega))
    rw [Nat.testBit_lt_two_pow small, Bool.and_false]

theorem PrbsRegs.generate_zeroWindows {p : PrbsRegs} (x1 : p.x1 = 0) (x2 : p.x2 = 0) (n : Nat) :
    p.generate n = { p with out := 0, pos := p.pos + BitVec.ofNat 32 n } := by
  rw [PrbsRegs.generate, PrbsRegs.windows, x1, x2, advance_zeroWindows, packBits_zeroWindows]
  rfl

theorem PrbsRegs.skip_zeroWindows {p : PrbsRegs} (x1 : p.x1 = 0) (x2 : p.x2 = 0) (k : Nat) :
    p.skip k = { p with pos := p.pos + BitVec.ofNat 32 k } := by
  rw [PrbsRegs.skip, PrbsRegs.windows, x1, x2, advance_zeroWindows]

theorem PrbsRegs.skip_zero (p : PrbsRegs) : p.skip 0 = p := by
  rw [PrbsRegs.skip, advance_zero, BitVec.add_zero]
  rfl

/-! ### The stream -/

theorem streamAt_iff (c : BitVec 31) (n : Nat) (p : PrbsRegs) :
    StreamAt c n p ↔ p.windows.At c (goldOffset + n) ∧ p.pos = BitVec.ofNat 32 n :=
  and_assoc.symm

/-- PRBS_SEED's registers stand at c(0) (41_prbs.md R181). -/
theorem streamAt_seededPrbs (c : BitVec 31) : StreamAt c 0 (seededPrbs c) := by
  rw [streamAt_iff, PrbsRegs.windows_seeded, seedWindows, Nat.add_comm goldOffset]
  exact ⟨(Windows.at_zero_seed c).advance goldOffset, rfl⟩

/-- The bit `j` steps on is `j` places on in the stream (41_prbs.md R185). -/
theorem StreamAt.bit_advance {c : BitVec 31} {n : Nat} {p : PrbsRegs} (h : StreamAt c n p) (j : Nat) :
    (advance j p.windows).bit = goldBit c (n + j) := by
  obtain ⟨windows, -⟩ := (streamAt_iff ..).1 h
  have ahead := windows.advance j
  rw [Nat.add_assoc] at ahead
  exact ahead.bit_eq_goldBit

/-- Windows `k` steps on with a position `k` higher stand `k` places on in the stream (41_prbs.md R185). -/
theorem StreamAt.of_advance {c : BitVec 31} {n k : Nat} {p q : PrbsRegs} (h : StreamAt c n p)
    (windows : q.windows = advance k p.windows) (pos : q.pos = p.pos + BitVec.ofNat 32 k) :
    StreamAt c (n + k) q := by
  obtain ⟨before, posBefore⟩ := (streamAt_iff ..).1 h
  refine (streamAt_iff ..).2 ⟨?_, ?_⟩
  · rw [windows, ← Nat.add_assoc]
    exact before.advance k
  · rw [pos, posBefore, BitVec.ofNat_add]

theorem StreamAt.generate {c : BitVec 31} {n : Nat} {p : PrbsRegs} (h : StreamAt c n p) (cnt : Nat) :
    StreamAt c (n + cnt) (p.generate cnt) :=
  h.of_advance (p.windows_generate cnt) rfl

theorem StreamAt.skip {c : BitVec 31} {n : Nat} {p : PrbsRegs} (h : StreamAt c n p) (k : Nat) :
    StreamAt c (n + k) (p.skip k) :=
  h.of_advance (p.windows_skip k) rfl

end Sys2Proof.Machine

open Sys2Proof Sys2Proof.Machine

/-- Settles O39, from the bits of a shifted window and the recurrences of the sequences. -/
theorem windowStep : Obligations.WindowStep := by
  refine ⟨fun w => ⟨fun i hi => ⟨?_, ?_⟩, ?_, ?_⟩, fun c m w onX1 onX2 => ?_⟩
  · rw [stepWindows_x1_getLsbD w (by omega), if_neg (by omega)]
  · rw [stepWindows_x2_getLsbD w (by omega), if_neg (by omega)]
  · rw [stepWindows_x1_getLsbD w (by omega), if_pos rfl]
  · rw [stepWindows_x2_getLsbD w (by omega), if_pos rfl]
  · exact Windows.At.step ⟨onX1, onX2⟩

/-- Settles O40: the windows start on the sequences at index 0 and Nc steps keep them there; that onto x1 does not
depend on the seed. -/
theorem prbsSeedStartsStream : Obligations.PrbsSeedStartsStream :=
  fun s => ⟨_, exec_prbsSeed s, rfl, streamAt_seededPrbs _, rfl, rfl, rfl, PrbsRegs.seeded_x1 _⟩

/-- Settles O41, bit by bit of the packed word; on the stream each bit is one of its bits. -/
theorem prbsGenEmitsStream : Obligations.PrbsGenEmitsStream := by
  intro s cnt _ cntMax w
  have outBit : ∀ {j}, j < cnt.toNat → (s.prbs.generate cnt.toNat).out.getLsbD j = (advance j s.prbs.windows).bit :=
    fun inside => by rw [PrbsRegs.generate_out_getLsbD _ cntMax, if_pos inside]
  refine ⟨_, exec_prbsGen cnt s, ?_, fun j inside => ?_, fun j beyond => ?_,
    fun c n onStream => ⟨?_, fun j inside => ?_⟩⟩
  · exact congrArg (fun p => { s with prbs := p }) (s.prbs.generate_eq cnt)
  · rw [outBit inside, advance_eq_iterate]
    rfl
  · rw [PrbsRegs.generate_out_getLsbD _ cntMax, if_neg beyond.not_gt]
  · exact onStream.generate cnt.toNat
  · rw [outBit inside, onStream.bit_advance]

/-- Settles O42: zero windows stay zero and pack to 0. -/
theorem prbsGenBeforeSeed : Obligations.PrbsGenBeforeSeed := by
  intro s cnt x1 x2
  rw [exec_prbsGen, PrbsRegs.generate_zeroWindows x1 x2, BitVec.ofNat_toNat]

/-- Settles O43: a skip is window steps and a position, whatever the windows hold. -/
theorem prbsSkipAdvancesStream : Obligations.PrbsSkipAdvancesStream := by
  intro s w
  refine ⟨_, exec_prbsSkip s, ?_, fun ⟨x1, x2⟩ => ?_, fun none => ?_, fun c n onStream => ?_⟩
  · exact congrArg (fun p => { s with prbs := p }) (s.prbs.skip_eq s.arg0)
  · rw [PrbsRegs.skip_zeroWindows x1 x2, BitVec.ofNat_toNat, BitVec.setWidth_eq]
  · have noSteps : s.arg0.toNat = 0 := BitVec.toNat_eq.1 none
    rw [noSteps, PrbsRegs.skip_zero]
  · exact onStream.skip s.arg0.toNat

end

section
/-! PROOFS. The constellation mapper (42_qam.md): the coordinates a group of bits can give, what a rectangle of fresh
draws leaves at each resource element, and what a command does whose target lies outside the grid. -/

namespace Sys2Proof.Machine

/-! ### Points -/

/-- `z` is odd and at most `m` in size: what each level of the formulas of 42_qam.md R200 yields. -/
def OddWithin (m z : Int) : Prop := z % 2 = 1 ∧ -m ≤ z ∧ z ≤ m

theorem sgn_eq_or (x : Bool) : sgn x = 1 ∨ sgn x = -1 := by cases x <;> decide

theorem oddWithin_sgn (x : Bool) : OddWithin 1 (sgn x) := by unfold OddWithin; cases x <;> decide

theorem OddWithin.sgn_mul {m z : Int} (h : OddWithin m z) (x : Bool) : OddWithin m (sgn x * z) := by
  obtain ⟨odd, low, high⟩ := h
  rcases sgn_eq_or x with one | negative
  · rw [one, one_mul]
    exact ⟨odd, low, high⟩
  · rw [negative, neg_one_mul]
    exact ⟨by omega, by omega, by omega⟩

/-- One level of the formulas: an odd number taken from an even constant. -/
theorem OddWithin.const_sub {m z : Int} (h : OddWithin m z) {c : Int} (even : c % 2 = 0) (pos : 0 ≤ c) :
    OddWithin (c + m) (c - z) := by
  obtain ⟨odd, low, high⟩ := h
  exact ⟨by omega, by omega, by omega⟩

theorem OddWithin.mono {m m' z : Int} (h : OddWithin m z) (le : m ≤ m') : OddWithin m' z := by
  obtain ⟨odd, low, high⟩ := h
  exact ⟨odd, by omega, by omega⟩

/-- A coordinate of 16QAM. -/
theorem oddWithin_qam16 (x y : Bool) : OddWithin 3 (sgn x * (2 - sgn y)) :=
  ((oddWithin_sgn y).const_sub rfl (by decide)).sgn_mul x

/-- A coordinate of 64QAM, from one of 16QAM. -/
theorem oddWithin_qam64 (x y z : Bool) : OddWithin 7 (sgn x * (4 - sgn y * (2 - sgn z))) :=
  ((oddWithin_qam16 y z).const_sub rfl (by decide)).sgn_mul x

/-- A coordinate of 256QAM, from one of 64QAM. -/
theorem oddWithin_qam256 (x y z w : Bool) : OddWithin 15 (sgn x * (8 - sgn y * (4 - sgn z * (2 - sgn w)))) :=
  ((oddWithin_qam64 y z w).const_sub rfl (by decide)).sgn_mul x

/-- Both coordinates of every point (42_qam.md R202). -/
theorem oddWithin_mapPoint (ord : Order) (b : Nat → Bool) :
    OddWithin 15 (mapPoint ord b).a ∧ OddWithin 15 (mapPoint ord b).b := by
  cases ord with
  | bpsk => exact ⟨(oddWithin_sgn _).mono (by decide), (oddWithin_sgn _).mono (by decide)⟩
  | qpsk => exact ⟨(oddWithin_sgn _).mono (by decide), (oddWithin_sgn _).mono (by decide)⟩
  | qam16 => exact ⟨(oddWithin_qam16 ..).mono (by decide), (oddWithin_qam16 ..).mono (by decide)⟩
  | qam64 => exact ⟨(oddWithin_qam64 ..).mono (by decide), (oddWithin_qam64 ..).mono (by decide)⟩
  | qam256 => exact ⟨oddWithin_qam256 .., oddWithin_qam256 ..⟩

/-- Cutting the bits off at Qm does not move the point. -/
theorem mapPoint_mask (ord : Order) (b : Nat → Bool) :
    mapPoint ord b = mapPoint ord fun i => if i < bitsPerSymbol ord then b i else false := by
  cases ord <;> rfl

theorem mapPoint_congr {ord : Order} {b b' : Nat → Bool} (same : ∀ i, i < bitsPerSymbol ord → b i = b' i) :
    mapPoint ord b = mapPoint ord b' := by
  rw [mapPoint_mask ord b, mapPoint_mask ord b']
  exact congrArg (mapPoint ord) (funext fun i => ite_congr rfl (same i) fun _ => rfl)

theorem mapPoint_norm_lt (ord : Order) (b : Nat → Bool) : (mapPoint ord b).norm < 2 ^ 8 := by
  cases ord <;> simp [mapPoint]

/-! ### The result registers -/

theorem exec_qamMap (ord : Order) (s : State) :
    exec (.qamMap ord) s = .next { s with map := mapRegsOf (mapPoint ord s.argBit) } := rfl

/-- A coordinate fits its signed register (10_state.md R46). -/
theorem OddWithin.toInt_ofInt {z : Int} (h : OddWithin 15 z) : (BitVec.ofInt 32 z).toInt = z := by
  obtain ⟨-, low, high⟩ := h
  exact BitVec.toInt_ofInt_eq_self (by decide) (by omega) (by omega)

/-- The result registers read back as the point they were made of (10_state.md R46). -/
theorem mapRegsOf_read (ord : Order) (b : Nat → Bool) :
    ((mapRegsOf (mapPoint ord b)).i.toInt, (mapRegsOf (mapPoint ord b)).q.toInt,
        (mapRegsOf (mapPoint ord b)).norm.toNat)
      = ((mapPoint ord b).a, (mapPoint ord b).b, (mapPoint ord b).norm) := by
  obtain ⟨a, b'⟩ := oddWithin_mapPoint ord b
  rw [mapRegsOf, a.toInt_ofInt, b'.toInt_ofInt, BitVec.toNat_ofNat, Nat.mod_eq_of_lt (mapPoint_norm_lt ord b)]

/-! ### Targets inside and outside the grid -/

section
variable {s : State} {inside : Prop} [Decidable inside]

/-- A command whose target lies inside the grid performs its work. -/
theorem State.settle_inside (valid : s.cfgValid = true) (h : inside) (t : State) :
    s.settle (s.needConfig (needRange inside (.ok t))) = .next t := by
  rw [State.needConfig_of_valid valid, needRange_of h, State.settle_ok]

/-- A command whose target leaves the grid reports RANGE and does no work (60_exceptions.md R301). -/
theorem State.settle_outside (valid : s.cfgValid = true) (h : ¬ inside) (k : Except CmdError State) :
    s.settle (s.needConfig (needRange inside k)) = .next (s.raise .range) := by
  rw [State.needConfig_of_valid valid, needRange_of_not h, State.settle_error]

end

section
variable {s : State} (valid : s.cfgValid = true)
include valid

theorem exec_qamFill_inside (tag : Tag) (ord : Order) (hrb : s.argRb0 + s.argNrbf ≤ s.eff.nrb.toNat)
    (hl : s.argL0 + s.argNl ≤ s.eff.totalSymbols.toNat) :
    exec (.qamFill tag ord) s = .next (s.filled tag ord) :=
  State.settle_inside valid ⟨hrb, hl⟩ _

theorem exec_qamFill_outside (tag : Tag) (ord : Order)
    (out : s.eff.nrb.toNat < s.argRb0 + s.argNrbf ∨ s.eff.totalSymbols.toNat < s.argL0 + s.argNl) :
    exec (.qamFill tag ord) s = .next (s.raise .range) :=
  State.settle_outside valid (by omega) _

theorem exec_rsGen_outside (sel : Sel) (out : s.eff.nrb.toNat < s.argRb0 + s.argNrbf
    ∨ s.eff.totalSlots.toNat ≤ s.argSlot ∨ s.eff.symsPerSlot.toNat ≤ s.argSymb) :
    exec (.rsGen sel) s = .next (s.raise .range) :=
  State.settle_outside valid (by omega) _

end

/-! ### Rectangles -/

/-- Resource blocks that lie inside the grid have their subcarriers below the stride (10_state.md R43; log 14). -/
theorem blocks_le_gridStride {nrb : BitVec 9} {blocks : Nat} (h : blocks ≤ nrb.toNat) : 12 * blocks ≤ gridStride := by
  have width : nrb.toNat < 2 ^ 9 := nrb.isLt
  unfold gridStride
  omega

/-- What a write of subcarriers `k0 .. k0+len-1` of column `l0` leaves at each element. -/
theorem read_writeRange_gridKey {k0 l0 len k l : Nat} (fits : k0 + len ≤ gridStride) (hk : k < gridStride)
    (g : Memory RE) (f : Nat → RE) :
    Memory.read RE.blank (Memory.writeRange RE.blank g (gridKey k0 l0) len f) (gridKey k l)
      = if l = l0 ∧ k0 ≤ k ∧ k < k0 + len then f (k - k0) else Memory.read RE.blank g (gridKey k l) := by
  have written : gridKey k0 l0 ≤ gridKey k l ∧ gridKey k l < gridKey k0 l0 + len
      ↔ l = l0 ∧ k0 ≤ k ∧ k < k0 + len := by
    simp only [gridKey, gridStride] at *
    omega
  rw [Memory.read_writeRange, if_congr written rfl rfl]
  refine ite_congr rfl (fun ⟨column, _⟩ => ?_) fun _ => rfl
  rw [column, gridKey, gridKey, Nat.add_sub_add_left]

theorem fillRect_succ (ord : Order) (tag : Tag) (rb0 nrbf l0 nl draw : Nat) (g : Memory RE) :
    fillRect ord tag rb0 nrbf l0 (nl + 1) draw g = fillColumn ord tag rb0 nrbf (l0 + nl) (draw + nl * (12 * nrbf))
      (fillRect ord tag rb0 nrbf l0 nl draw g) := by
  simp only [fillRect, List.range_succ, List.foldl_append, List.foldl_cons, List.foldl_nil]

section
variable {rb0 nrbf : Nat} (fits : 12 * (rb0 + nrbf) ≤ gridStride)
include fits

/-- An element of the rectangle holds its own draw: the columns are disjoint, so none is overwritten. -/
theorem read_fillRect_inside (ord : Order) (tag : Tag) (l0 draw : Nat) (g : Memory RE) {i : Nat}
    (hi : i < 12 * nrbf) {nl j : Nat} (hj : j < nl) :
    Memory.read RE.blank (fillRect ord tag rb0 nrbf l0 nl draw g) (gridKey (12 * rb0 + i) (l0 + j))
      = fillElement ord tag (draw + j * (12 * nrbf) + i) := by
  induction nl with
  | zero => omega
  | succ nl ih =>
    rw [fillRect_succ, fillColumn, read_writeRange_gridKey (by omega) (by omega)]
    by_cases last : j = nl
    · rw [if_pos (by omega), last, Nat.add_sub_cancel_left]
    · rw [if_neg (by omega)]
      exact ih (by omega)

/-- An element outside the rectangle is in none of its columns. -/
theorem read_fillRect_outside (ord : Order) (tag : Tag) (l0 draw : Nat) (g : Memory RE) {k l nl : Nat}
    (hk : k < gridStride)
    (out : ¬ (12 * rb0 ≤ k ∧ k < 12 * (rb0 + nrbf) ∧ l0 ≤ l ∧ l < l0 + nl)) :
    Memory.read RE.blank (fillRect ord tag rb0 nrbf l0 nl draw g) (gridKey k l)
      = Memory.read RE.blank g (gridKey k l) := by
  induction nl with
  | zero => rfl
  | succ nl ih =>
    rw [fillRect_succ, fillColumn, read_writeRange_gridKey (by omega) hk, if_neg (by omega)]
    exact ih (by omega)

end

end Sys2Proof.Machine

open Sys2Proof Sys2Proof.Machine

/-- Settles O44: the coordinates fit the result registers, and `mapPoint` has the five formulas. -/
theorem qamMapResult : Obligations.QamMapResult := by
  intro s ord
  refine ⟨_, exec_qamMap ord s, rfl, (mapRegsOf_read ord s.argBit).trans ?_⟩
  cases ord <;> rfl

/-- Settles O45: each level of the formulas keeps a coordinate odd and adds its constant to the bound. -/
theorem qamPointsOddAndBounded : Obligations.QamPointsOddAndBounded := by
  intro ord b b'
  obtain ⟨⟨oddA, lowA, highA⟩, oddB, lowB, highB⟩ := oddWithin_mapPoint ord b
  exact ⟨⟨oddA, oddB⟩, ⟨lowA, highA, lowB, highB⟩, mapPoint_congr⟩

/-- Settles O46, column by column. -/
theorem qamFillWritesRectangle : Obligations.QamFillWritesRectangle := by
  intro s tag ord valid hrb hl
  have fits : 12 * (s.argRb0 + s.argNrbf) ≤ gridStride := blocks_le_gridStride hrb
  exact ⟨_, exec_qamFill_inside valid tag ord hrb hl, rfl, fun i j hi hj => read_fillRect_inside fits _ _ _ _ _ hi hj,
    fun k l hk out => read_fillRect_outside fits _ _ _ _ _ hk out⟩

/-- Settles O47: the range check fails before any work is done. -/
theorem targetsOutsideGridReport : Obligations.TargetsOutsideGridReport :=
  fun _ valid => ⟨fun out tag ord => exec_qamFill_outside valid tag ord out,
    fun out sel => exec_rsGen_outside valid sel out⟩

end

section
/-! PROOFS. The reference-signal generator (43_refsig.md): the seeds as the rules state them, and what RS_GEN leaves at
each resource element. -/

namespace Sys2Proof.Machine

/-! ### Seeds -/

/-- The seed multiplexer as a number: reducing modulo 2^31 twice is reducing once (43_refsig.md R231 to R233). -/
theorem State.rsSeed_toNat (s : State) (sel : Sel) : (s.rsSeed sel).toNat =
    match sel with
    | .pdsch => pdschSeed s.eff.cell.toNat s.argSlot s.argSymb
    | .pbch => pbchSeed s.eff.cell.toNat s.argSsb s.argHf
    | .raw => s.arg2.toNat % 2 ^ 31 := by
  cases sel with
  | pdsch => exact Nat.mod_mod _ _
  | pbch => exact Nat.mod_mod _ _
  | raw => rfl

/-- RS_CINIT with a configuration (43_refsig.md R238). -/
theorem exec_rsCinit_valid {s : State} (valid : s.cfgValid = true) (sel : Sel) :
    exec (.rsCinit sel) s = .next { s with rs := { s.rs with cinit := s.rsSeed sel } } := by
  show s.settle (s.needConfig (.ok _)) = _
  rw [State.needConfig_of_valid valid, State.settle_ok]

/-! ### The symbols -/

/-- RS_GEN's own generator runs on the sequences of its seed (41_prbs.md R180, R185). -/
theorem ownGoldBit_eq_goldBit (c : BitVec 31) (n : Nat) : ownGoldBit c n = goldBit c n := by
  have onStream := (streamAt_seededPrbs c).bit_advance n
  rwa [PrbsRegs.windows_seeded, Nat.zero_add] at onStream

theorem rsPoint_eq (c : BitVec 31) (m : Nat) : rsPoint c m
    = ⟨if goldBit c (2 * m) then -1 else 1, if goldBit c (2 * m + 1) then -1 else 1, 2⟩ := by
  rw [rsPoint, ownGoldBit_eq_goldBit, ownGoldBit_eq_goldBit, sgn, sgn]

/-! ### The grid after RS_GEN -/

/-- RS_GEN on a target inside the grid (43_refsig.md R239). -/
theorem exec_rsGen_inside {s : State} (valid : s.cfgValid = true) (sel : Sel)
    (hrb : s.argRb0 + s.argNrbf ≤ s.eff.nrb.toNat) (hslot : s.argSlot < s.eff.totalSlots.toNat)
    (hsymb : s.argSymb < s.eff.symsPerSlot.toNat) : exec (.rsGen sel) s
      = .next { s with rs := { s.rs with cinit := s.rsSeed sel }, grid := s.rsGrid (s.rsSeed sel) } :=
  State.settle_inside valid ⟨hrb, hslot, hsymb⟩ _

section
variable {s t : State} {c : BitVec 31} (grid : t.grid = s.rsGrid c)
  (fits : 12 * (s.argRb0 + s.argNrbf) ≤ gridStride)
include grid fits

/-- RS_GEN rewrites the column segment of its footprint and no other element (43_refsig.md R239). -/
theorem gridAt_rsGrid {k l : Nat} (hk : k < gridStride) : t.gridAt k l
    = if l = s.rsColumn ∧ 12 * s.argRb0 ≤ k ∧ k < 12 * s.argRb0 + 12 * s.argNrbf
      then rsElement c s.rs.mask s.rs.moff.toNat (k - 12 * s.argRb0) (s.gridAt k l) else s.gridAt k l := by
  rw [State.gridAt, grid, State.rsGrid, read_writeRange_gridKey (by omega) hk]
  refine ite_congr rfl (fun ⟨column, low, _⟩ => ?_) fun _ => rfl
  rw [Nat.add_sub_cancel' low, column]

/-- A masked position of a block of the footprint holds its symbol of the sequence (43_refsig.md R236). -/
theorem gridAt_rsGrid_masked {r p : Nat} (hr : r < s.argNrbf) (hp : p < 12) (masked : s.rs.mask.getLsbD p = true) :
    t.gridAt (12 * (s.argRb0 + r) + p) s.rsColumn
      = ⟨Config.quantise (rsPoint c (rsIndex s.rs.mask s.rs.moff.toNat r p)), .dmrs⟩ := by
  have place : 12 * (s.argRb0 + r) + p - 12 * s.argRb0 = 12 * r + p := by omega
  have position : (12 * r + p) % 12 = p := by omega
  have block : (12 * r + p) / 12 = r := by omega
  rw [gridAt_rsGrid grid fits (by omega), if_pos ⟨rfl, by omega, by omega⟩, place, rsElement, position, block,
    if_pos masked]

/-- Outside the footprint no element is written, and inside it an unmasked one is written back as it was
(43_refsig.md R236). -/
theorem gridAt_rsGrid_unmasked {k l : Nat} (hk : k < gridStride)
    (out : ¬ (l = s.rsColumn ∧ 12 * s.argRb0 ≤ k ∧ k < 12 * (s.argRb0 + s.argNrbf)
      ∧ s.rs.mask.getLsbD (k % 12) = true)) : t.gridAt k l = s.gridAt k l := by
  rw [gridAt_rsGrid grid fits hk]
  split
  next inside =>
    obtain ⟨column, low, high⟩ := inside
    have position : (k - 12 * s.argRb0) % 12 = k % 12 := by omega
    rw [rsElement, position, if_neg fun masked => out ⟨column, low, by omega, masked⟩]
  next => rfl

end

end Sys2Proof.Machine

open Sys2Proof Sys2Proof.Machine

/-- Settles O48: the multiplexer has the three formulas, and each seed fits the register. -/
theorem rsCinitSeeds : Obligations.RsCinitSeeds := by
  intro s sel valid
  refine ⟨_, exec_rsCinit_valid valid sel, rfl, (s.rsSeed_toNat sel).trans ?_⟩
  cases sel <;> rfl

/-- Settles O49: each element of the footprint is either a masked position or written back as it was. -/
theorem rsGenWritesMaskedPositions : Obligations.RsGenWritesMaskedPositions := by
  intro s sel valid hrb hslot hsymb
  have fits : 12 * (s.argRb0 + s.argNrbf) ≤ gridStride := blocks_le_gridStride hrb
  refine ⟨_, exec_rsGen_inside valid sel hrb hslot hsymb, rfl, fun r p hr hp masked => ?_,
    fun k l hk out => gridAt_rsGrid_unmasked rfl fits hk out⟩
  exact (gridAt_rsGrid_masked rfl fits hr hp masked).trans (by rw [rsPoint_eq]; rfl)

end

section
/-! PROOFS. The OFDM modulator (44_ofdm.md): what the three commands answer, where the spans of the symbols lie in
OUT, what a run of symbols leaves at each sample, and the ideal transform of a constant. -/

namespace Sys2Proof.Machine

/-! ### The commands -/

section
variable {s : State} {inside : Prop} [Decidable inside]

/-- An OFDM command whose target lies inside the frame performs its work. -/
theorem State.settle_normal_inside (valid : s.cfgValid = true) (normal : s.eff.cp = 0) (h : inside) (t : State) :
    s.settle (s.needNormalCp (needRange inside (.ok t))) = .next t := by
  rw [State.needNormalCp_of_normal valid normal, needRange_of h, State.settle_ok]

/-- An OFDM command whose target leaves the frame reports RANGE (44_ofdm.md R266, R267). -/
theorem State.settle_normal_outside (valid : s.cfgValid = true) (normal : s.eff.cp = 0) (h : ¬ inside)
    (k : Except CmdError State) : s.settle (s.needNormalCp (needRange inside k)) = .next (s.raise .range) := by
  rw [State.needNormalCp_of_normal valid normal, needRange_of_not h, State.settle_error]

/-- With extended CP an OFDM command reports EXT_CP_UNSUPPORTED, whatever it would do (44_ofdm.md R261). -/
theorem State.settle_extended (valid : s.cfgValid = true) (extended : s.eff.cp ≠ 0) (k : Except CmdError State) :
    s.settle (s.needNormalCp k) = .next (s.raise .extCpUnsupported) := by
  rw [State.needNormalCp_of_extended valid extended, State.settle_error]

/-- OUT after an OFDM command: the modulated one, or after an error the one before. -/
theorem State.out_settle_normal {t : State} {o : Memory Sample}
    (h : s.settle (s.needNormalCp (needRange inside (.ok { s with out := o }))) = .next t) :
    t.out = if s.cfgValid = true ∧ s.eff.cp = 0 ∧ inside then o else s.out := by
  rcases State.settle_next.1 h with ok | ⟨e, failed, rfl⟩
  · obtain ⟨valid, normal, ok⟩ := State.needNormalCp_ok.1 ok
    obtain ⟨target, ok⟩ := needRange_ok.1 ok
    cases ok
    exact (if_pos ⟨valid, normal, target⟩).symm
  · refine (if_neg ?_).symm
    rintro ⟨valid, normal, target⟩
    rw [State.needNormalCp_of_normal valid normal, needRange_of target] at failed
    cases failed

end

section
variable {s : State} (valid : s.cfgValid = true) (normal : s.eff.cp = 0)
include valid normal

theorem exec_ofdmSym_inside {sym : BitVec 12} (h : sym.toNat < s.eff.totalSymbols.toNat) : exec (.ofdmSym sym) s
    = .next { s with out := modulateSymbol Config.transform s.eff s.grid sym.toNat s.out } :=
  State.settle_normal_inside valid normal h _

theorem exec_ofdmSlot_inside {slot : BitVec 8} (h : slot.toNat < s.eff.totalSlots.toNat) : exec (.ofdmSlot slot) s
    = .next { s with out := modulateSlot Config.transform s.eff s.grid slot.toNat s.out } :=
  State.settle_normal_inside valid normal h _

theorem exec_ofdmFrame_normal : exec .ofdmFrame s
    = .next { s with out := modulateFrame Config.transform s.eff s.grid s.out } :=
  State.settle_normal_inside valid normal trivial _

end

section
variable {s t : State}

theorem exec_ofdmSym_out {sym : BitVec 12} (h : exec (.ofdmSym sym) s = .next t) : t.out
    = if s.cfgValid = true ∧ s.eff.cp = 0 ∧ sym.toNat < s.eff.totalSymbols.toNat
      then modulateSymbol Config.transform s.eff s.grid sym.toNat s.out else s.out :=
  State.out_settle_normal h

theorem exec_ofdmSlot_out {slot : BitVec 8} (h : exec (.ofdmSlot slot) s = .next t) : t.out
    = if s.cfgValid = true ∧ s.eff.cp = 0 ∧ slot.toNat < s.eff.totalSlots.toNat
      then modulateSlot Config.transform s.eff s.grid slot.toNat s.out else s.out :=
  State.out_settle_normal h

theorem exec_ofdmFrame_out (h : exec .ofdmFrame s = .next t) : t.out
    = if s.cfgValid = true ∧ s.eff.cp = 0
      then modulateFrame Config.transform s.eff s.grid s.out else s.out :=
  (State.out_settle_normal (inside := True) h).trans (if_congr (by rw [and_true]) rfl rfl)

end

/-! ### Values and tags -/

section
variable {e : EffectiveConfig} {g g' : Memory RE}

/-- The bins of a column are made of its values (44_ofdm.md R260). -/
theorem columnBins_congr
    (same : ∀ k l, (Memory.read RE.blank g (gridKey k l)).val = (Memory.read RE.blank g' (gridKey k l)).val) :
    columnBins e g = columnBins e g' := by
  funext l
  simp only [columnBins, same]

variable (T : Transform) (same : columnBins e g = columnBins e g')
include same

/-- GRID enters the modulator through the bins of its columns only. -/
theorem modulateSymbol_congr : modulateSymbol T e g = modulateSymbol T e g' := by
  funext l o
  have samples : symbolSample T e g l = symbolSample T e g' l := by
    funext j
    simp only [symbolSample, usefulSample, same]
  rw [modulateSymbol, modulateSymbol, samples]

theorem modulateSlot_congr : modulateSlot T e g = modulateSlot T e g' := by
  funext slot o
  rw [modulateSlot, modulateSlot, modulateSymbol_congr T same]

theorem modulateFrame_congr : modulateFrame T e g = modulateFrame T e g' := by
  funext o
  rw [modulateFrame, modulateFrame, modulateSlot_congr T same]

end

/-! ### The spans of the symbols -/

/-- Registers CFG_APPLY latches for normal CP: tiled, with fourteen symbols to a slot and no CP longer than the samples
it repeats. -/
structure EffectiveConfig.NormalTiled (e : EffectiveConfig) : Prop extends e.Tiled where
  normal : e.cp = 0
  /-- Normal CP has fourteen symbols in a slot (40_config.md R142). -/
  fourteen : e.symsPerSlot.toNat = 14
  /-- The CP is a tail of the useful samples (40_config.md R151, 44_ofdm.md R265). -/
  cpLenAt_le : ∀ i, e.cpLenAt i ≤ e.nUseful.toNat

theorem StagedConfig.Accepted.cpLenAt_le {c : StagedConfig} (h : c.Accepted) (normal : c.cp = 0) (i : Nat) :
    c.derive.cpLenAt i ≤ c.derive.nUseful.toNat := by
  have length := StagedConfig.derive_cpLenAt h normal i
  have longest := reconcile_le c.mu.toNat c.nUsefulOf
  generalize reconcile c.mu.toNat c.nUsefulOf (15 * c.nUsefulOf) = cp at *
  rw [c.derive_nUseful]
  by_cases hi : i < cp.length
  · rw [List.getD_eq_getElem _ _ hi] at length
    have := longest _ (List.getElem_mem hi)
    omega
  · rw [List.getD_eq_default _ _ (by omega)] at length
    omega

theorem StagedConfig.Accepted.normalTiled {c : StagedConfig} (h : c.Accepted) (normal : c.cp = 0) :
    c.derive.NormalTiled where
  toTiled := h.tiled
  normal := normal
  fourteen := c.derive_symsPerSlot.trans (if_pos normal)
  cpLenAt_le := h.cpLenAt_le normal

/-- A latched state with a configuration of normal CP. -/
theorem EffectiveLatched.normalTiled {s : State} (h : EffectiveLatched s) (valid : s.cfgValid = true)
    (normal : s.eff.cp = 0) : s.eff.NormalTiled := by
  rcases h with ⟨invalid, -⟩ | ⟨c, accepted, derived⟩
  · rw [valid] at invalid
    cases invalid
  · rw [derived] at normal ⊢
    exact accepted.normalTiled normal

section
variable {e : EffectiveConfig} (h : e.NormalTiled)
include h

/-- The first symbol of a slot starts where the slot does (44_ofdm.md R265). -/
theorem EffectiveConfig.NormalTiled.symbolOffset_slot (slot : Nat) :
    e.symbolOffset (slot * 14) = slot * e.slotSamples.toNat := by
  rw [EffectiveConfig.symbolOffset, h.fourteen, Nat.mul_div_cancel _ (by decide), Nat.mul_mod_left]
  rfl

/-- A symbol starts where the one before it ends, the next slot's first symbol included (44_ofdm.md R265). -/
theorem EffectiveConfig.NormalTiled.symbolOffset_succ (l : Nat) :
    e.symbolOffset (l + 1) = e.symbolOffset l + e.symbolSamples (l % 14) := by
  rcases Nat.lt_or_ge (l % 14 + 1) 14 with within | last
  · have slot : (l + 1) / 14 = l / 14 := by omega
    have place : (l + 1) % 14 = l % 14 + 1 := by omega
    rw [EffectiveConfig.symbolOffset, EffectiveConfig.symbolOffset, h.fourteen, slot, place, List.sum_range_succ,
      Nat.add_assoc]
  · have next : l + 1 = (l / 14 + 1) * 14 := by omega
    have place : l % 14 = 13 := by omega
    have whole := h.slot h.normal
    rw [h.fourteen, List.sum_range_succ] at whole
    rw [next, h.symbolOffset_slot, EffectiveConfig.symbolOffset, h.fourteen, place, Nat.add_assoc, whole,
      Nat.succ_mul]

theorem EffectiveConfig.NormalTiled.symbolOffset_mono : Monotone e.symbolOffset :=
  monotone_nat_of_le_succ fun l => by rw [h.symbolOffset_succ]; exact Nat.le_add_right ..

theorem EffectiveConfig.NormalTiled.symbolOffset_zero : e.symbolOffset 0 = 0 := by
  simpa using h.symbolOffset_slot 0

/-- The last symbol ends with the frame (40_config.md R150, R151). -/
theorem EffectiveConfig.NormalTiled.symbolOffset_totalSymbols :
    e.symbolOffset e.totalSymbols.toNat = e.totalSamples.toNat := by
  rw [h.symbols, h.fourteen, h.symbolOffset_slot, h.samples h.normal]

/-- Every sample before the start of a symbol belongs to an earlier one. -/
theorem EffectiveConfig.NormalTiled.exists_symbol {n m : Nat} (hm : m < e.symbolOffset n) :
    ∃ l j, l < n ∧ j < e.symbolSamples (l % 14) ∧ m = e.symbolOffset l + j := by
  induction n with
  | zero => rw [h.symbolOffset_zero] at hm; omega
  | succ n ih =>
    rcases Nat.lt_or_ge m (e.symbolOffset n) with earlier | own
    · obtain ⟨l, j, hl, hj, place⟩ := ih earlier
      exact ⟨l, j, by omega, hj, place⟩
    · rw [h.symbolOffset_succ] at hm
      exact ⟨n, m - e.symbolOffset n, by omega, by omega, by omega⟩

end

/-! ### Symbols written one after the other -/

section
variable (T : Transform) (e : EffectiveConfig) (g : Memory RE)

/-- OUT with the `n` frame symbols from `first` on modulated, one after the other. -/
def modulateSymbols (first n : Nat) (o : Memory Sample) : Memory Sample :=
  (List.range n).foldl (fun o i => modulateSymbol T e g (first + i) o) o

theorem modulateSymbols_succ (first n : Nat) (o : Memory Sample) : modulateSymbols T e g first (n + 1) o
    = modulateSymbol T e g (first + n) (modulateSymbols T e g first n o) := by
  simp only [modulateSymbols, List.range_succ, List.foldl_append, List.foldl_cons, List.foldl_nil]

theorem modulateSymbols_add (first m n : Nat) (o : Memory Sample) : modulateSymbols T e g first (m + n) o
    = modulateSymbols T e g (first + m) n (modulateSymbols T e g first m o) := by
  induction n with
  | zero => rfl
  | succ n ih => rw [← Nat.add_assoc, modulateSymbols_succ, ih, modulateSymbols_succ, Nat.add_assoc]

/-- A slot is the run of its symbols (44_ofdm.md R267). -/
theorem modulateSlot_eq (slot : Nat) (o : Memory Sample) : modulateSlot T e g slot o
    = modulateSymbols T e g (slot * e.symsPerSlot.toNat) e.symsPerSlot.toNat o := rfl

/-- A frame is the run of all its symbols: its slots follow one another (44_ofdm.md R268). -/
theorem modulateFrame_eq (o : Memory Sample) : modulateFrame T e g o
    = modulateSymbols T e g 0 (e.totalSlots.toNat * e.symsPerSlot.toNat) o := by
  unfold modulateFrame
  induction e.totalSlots.toNat with
  | zero => rw [Nat.zero_mul]; rfl
  | succ n ih =>
    rw [List.range_succ, List.foldl_append, ih, Nat.succ_mul, modulateSymbols_add, Nat.zero_add]
    rfl

variable {T e g}

/-- OUT after one symbol: its samples in its span, and what was there outside it (44_ofdm.md R265, R266). -/
theorem read_modulateSymbol (l m : Nat) (o : Memory Sample) : Memory.read Sample.zero (modulateSymbol T e g l o) m
    = if e.symbolOffset l ≤ m ∧ m < e.symbolOffset l + e.symbolSamples (l % e.symsPerSlot.toNat)
      then symbolSample T e g l (m - e.symbolOffset l) else Memory.read Sample.zero o m :=
  Memory.read_writeRange ..

theorem read_modulateSymbol_inside {l j : Nat} (hj : j < e.symbolSamples (l % e.symsPerSlot.toNat))
    (o : Memory Sample) : Memory.read Sample.zero (modulateSymbol T e g l o) (e.symbolOffset l + j)
      = symbolSample T e g l j := by
  rw [read_modulateSymbol, if_pos (by omega), Nat.add_sub_cancel_left]

section
variable (h : e.NormalTiled)
include h

/-- Each symbol of a run keeps its own samples: the later ones start where it has ended. -/
theorem read_modulateSymbols_inside {first n i j : Nat} (hi : i < n) (hj : j < e.symbolSamples ((first + i) % 14))
    (o : Memory Sample) :
    Memory.read Sample.zero (modulateSymbols T e g first n o) (e.symbolOffset (first + i) + j)
      = symbolSample T e g (first + i) j := by
  induction n with
  | zero => omega
  | succ n ih =>
    rw [modulateSymbols_succ]
    rcases Nat.lt_or_ge i n with earlier | last
    · have ends := h.symbolOffset_succ (first + i)
      have before : e.symbolOffset (first + i + 1) ≤ e.symbolOffset (first + n) := h.symbolOffset_mono (by omega)
      rw [read_modulateSymbol, if_neg (by omega), ih earlier]
    · obtain rfl : i = n := by omega
      exact read_modulateSymbol_inside (by rwa [h.fourteen]) _

/-- A run of symbols writes from the start of its first to the end of its last, and nowhere else. -/
theorem read_modulateSymbols_outside {first n m : Nat}
    (out : ¬ (e.symbolOffset first ≤ m ∧ m < e.symbolOffset (first + n))) (o : Memory Sample) :
    Memory.read Sample.zero (modulateSymbols T e g first n o) m = Memory.read Sample.zero o m := by
  induction n with
  | zero => rfl
  | succ n ih =>
    have starts : e.symbolOffset first ≤ e.symbolOffset (first + n) := h.symbolOffset_mono (by omega)
    have ends := h.symbolOffset_succ (first + n)
    rw [← Nat.add_assoc, ends] at out
    rw [modulateSymbols_succ, read_modulateSymbol, h.fourteen, if_neg (by omega)]
    exact ih (by omega)

end

/-! ### The samples of one symbol -/

/-- A sample of the CP is the useful sample it repeats (44_ofdm.md R265). -/
theorem symbolSample_cp {l j : Nat} (hj : j < e.cpLenAt (l % e.symsPerSlot.toNat)) : symbolSample T e g l j
    = usefulSample T e g l (e.nUseful.toNat - e.cpLenAt (l % e.symsPerSlot.toNat) + j) := if_pos hj

theorem symbolSample_useful (l j : Nat) :
    symbolSample T e g l (e.cpLenAt (l % e.symsPerSlot.toNat) + j) = usefulSample T e g l j := by
  rw [symbolSample, if_neg (by omega), Nat.add_sub_cancel_left]

/-- The CP repeats the sample N_USEFUL further on. -/
theorem symbolSample_add_nUseful (h : e.NormalTiled) {l j : Nat}
    (hj : j < e.cpLenAt (l % e.symsPerSlot.toNat)) :
    symbolSample T e g l (e.nUseful.toNat + j) = symbolSample T e g l j := by
  have fits := h.cpLenAt_le (l % e.symsPerSlot.toNat)
  have place : e.nUseful.toNat + j = e.cpLenAt (l % e.symsPerSlot.toNat)
      + (e.nUseful.toNat - e.cpLenAt (l % e.symsPerSlot.toNat) + j) := by omega
  rw [place, symbolSample_useful, symbolSample_cp hj]

/-- Every sample of a symbol is a useful one. -/
theorem symbolSample_eq_useful (h : e.NormalTiled) {l j : Nat}
    (hj : j < e.symbolSamples (l % e.symsPerSlot.toNat)) :
    ∃ i, i < e.nUseful.toNat ∧ symbolSample T e g l j = usefulSample T e g l i := by
  have fits := h.cpLenAt_le (l % e.symsPerSlot.toNat)
  unfold EffectiveConfig.symbolSamples at hj
  rcases Nat.lt_or_ge j (e.cpLenAt (l % e.symsPerSlot.toNat)) with inCp | useful
  · exact ⟨_, by omega, symbolSample_cp inCp⟩
  · obtain ⟨i, rfl⟩ := Nat.exists_eq_add_of_le useful
    exact ⟨i, by omega, symbolSample_useful l i⟩

end

/-! ### The ideal transform -/

/-- A transform's result read inside its samples. -/
theorem sampleAt_of_lt {n : Nat} (y : Fin n → Sample) {j : Nat} (h : j < n) : sampleAt y j = y ⟨j, h⟩ := dif_pos h

/-- The ideal transform of a column with zero frequency only is constant (44_ofdm.md R262). -/
theorem idealIdft_dc {n : Nat} (z : ℂ) (i : Nat) (hn : 0 < n) :
    idealIdft n (fun k => if k.val = 0 then z else 0) i = z / n := by
  have one : (∑ k : Fin n, (if k.val = 0 then z else 0)
      * Complex.exp (2 * Real.pi * Complex.I * (k.val : ℂ) * (i : ℂ) / (n : ℂ))) = z := by
    rw [Finset.sum_eq_single ⟨0, hn⟩]
    · simp
    · intro k _ other
      rw [if_neg fun zero => other (Fin.ext zero), zero_mul]
    · exact fun absent => absurd (Finset.mem_univ _) absent
  rw [idealIdft, one]
  ring

/-- Subcarrier L/2 is placed at zero frequency, and no other is; L is even (44_ofdm.md R263). -/
theorem placeColumn_dc {n len : Nat} {x : Nat → ℂ} {z : ℂ} (pos : 0 < len) (even : len % 2 = 0)
    (fits : len ≤ n) (values : ∀ i, i < len → x i = if i = len / 2 then z else 0) :
    placeColumn n len x = fun k => if k.val = 0 then z else 0 := by
  funext k
  have small : k.val < n := k.isLt
  have rotated : (k.val + n / 2) % n = if k.val + n / 2 < n then k.val + n / 2 else k.val + n / 2 - n := by
    split
    next low => exact Nat.mod_eq_of_lt low
    next high => rw [Nat.mod_eq_sub_mod (by omega), Nat.mod_eq_of_lt (by omega)]
  simp only [placeColumn, rotated]
  generalize hbin : (if k.val + n / 2 < n then k.val + n / 2 else k.val + n / 2 - n) = bin
  have centre : bin = n / 2 ↔ k.val = 0 := by subst hbin; split <;> omega
  split
  next placed =>
    rw [values _ (by omega)]
    exact if_congr (by omega) rfl rfl
  next blank => rw [if_neg (by omega)]

/-- An accepted configuration has resource blocks, all within the useful samples, which the IDFT covers
(40_config.md R141, R145). -/
theorem StagedConfig.Accepted.sizes {c : StagedConfig} (h : c.Accepted) :
    0 < c.derive.nSubcarriers.toNat ∧ c.derive.nSubcarriers.toNat ≤ c.derive.nUseful.toNat
      ∧ c.derive.nUseful.toNat ≤ c.derive.nFft.toNat := by
  rw [c.derive_nSubcarriers, c.derive_nUseful, h.derive_nFft]
  unfold StagedConfig.Accepted at h
  rw [firstError_eq] at h
  split_ifs at h with hcp hcell hmu hmix hnrb hfs hsmall hlimit hwide
  have blocks : c.nrb.toNat ≠ 0 := fun zero => hnrb (.inl (BitVec.eq_of_toNat_eq zero))
  refine ⟨by omega, by omega, ?_⟩
  unfold StagedConfig.nFftOf
  split
  next automatic => exact (nextPow2Least c.nUsefulOf).2.1
  next override => exact not_lt.1 fun small => hsmall ⟨override, small⟩

end Sys2Proof.Machine

open Sys2Proof Sys2Proof.Machine

/-- Settles O55: the CP type is checked before the range, and an error changes the report only. -/
theorem ofdmErrorPriority : Obligations.OfdmErrorPriority := by
  refine fun s valid => ⟨fun extended i ofdm => ?_, fun normal => ⟨fun l out => ?_, fun n out => ?_⟩⟩
  · rcases ofdm with ⟨l, rfl⟩ | ⟨n, rfl⟩ | rfl <;> exact State.settle_extended valid extended _
  · exact State.settle_normal_outside valid normal (not_lt.2 out) _
  · exact State.settle_normal_outside valid normal (not_lt.2 out) _

/-- Settles O52: the offsets grow by each symbol's samples, and a slot's symbols make up the slot. -/
theorem symbolSpansTileFrame : Obligations.SymbolSpansTileFrame := by
  intro c accepted normal
  have tiled := accepted.normalTiled normal
  exact ⟨tiled.symbolOffset_zero, tiled.symbolOffset_succ, tiled.symbolOffset_totalSymbols⟩

/-- Settles O57: GRID enters the modulator through its values only. -/
theorem tagsDoNotAffectWaveform : Obligations.TagsDoNotAffectWaveform := by
  intro s g i t t' values ofdm performed performed'
  have same : columnBins s.eff g = columnBins s.eff s.grid := columnBins_congr values
  rcases ofdm with ⟨l, rfl⟩ | ⟨n, rfl⟩ | rfl
  · rw [exec_ofdmSym_out performed, exec_ofdmSym_out performed', modulateSymbol_congr _ same]
  · rw [exec_ofdmSlot_out performed, exec_ofdmSlot_out performed', modulateSlot_congr _ same]
  · rw [exec_ofdmFrame_out performed, exec_ofdmFrame_out performed', modulateFrame_congr _ same]

/-- Settles O50: the command writes the symbol's span, its CP first. -/
theorem ofdmSymbolWritesSpan : Obligations.OfdmSymbolWritesSpan := by
  intro s sym valid normal hsym
  refine ⟨_, exec_ofdmSym_inside valid normal hsym, rfl, fun j hj => ?_, fun j hj => ?_, fun m out => ?_⟩
  · exact (read_modulateSymbol_inside (Nat.lt_add_left _ hj) _).trans (symbolSample_cp hj)
  · refine (congrArg _ (Nat.add_assoc ..)).trans ?_
    exact (read_modulateSymbol_inside (by unfold EffectiveConfig.symbolSamples; omega) _).trans
      (symbolSample_useful _ j)
  · exact (read_modulateSymbol ..).trans (if_neg out)

/-- Settles O51: both samples are the same useful sample of the symbol. -/
theorem cyclicPrefixCopiesTail : Obligations.CyclicPrefixCopiesTail := by
  intro s t sym valid latched normal hsym performed j hj
  have tiled := latched.normalTiled valid normal
  rw [exec_ofdmSym_inside valid normal hsym] at performed
  cases performed
  rw [← tiled.fourteen] at hj
  simp only [State.outAt]
  rw [Nat.add_assoc, read_modulateSymbol_inside (Nat.lt_add_left _ hj),
    read_modulateSymbol_inside (Nat.add_lt_add_left hj _), symbolSample_add_nUseful tiled hj]

/-- Settles O53: a slot is a run of fourteen symbols whose first starts where the slot does. -/
theorem ofdmSlotWritesSlot : Obligations.OfdmSlotWritesSlot := by
  intro s slot valid latched normal hslot
  have tiled := latched.normalTiled valid normal
  refine ⟨_, exec_ofdmSlot_inside valid normal hslot, rfl, fun i j hi hj => ?_, fun m out => ?_⟩
  · have place : (slot.toNat * 14 + i) % 14 = i := by omega
    rw [State.outAt, modulateSlot_eq, tiled.fourteen, Nat.mul_comm 14]
    exact read_modulateSymbols_inside tiled hi (by rwa [place]) _
  · rw [State.outAt, modulateSlot_eq, tiled.fourteen]
    refine read_modulateSymbols_outside tiled ?_ _
    rwa [← Nat.succ_mul, tiled.symbolOffset_slot, tiled.symbolOffset_slot]

/-- Settles O54: the frame is the run of all its symbols, from sample 0 to TOTAL_SAMPLES. -/
theorem ofdmFrameWritesFrame : Obligations.OfdmFrameWritesFrame := by
  intro s valid latched normal
  have tiled := latched.normalTiled valid normal
  have run := modulateFrame_eq Config.transform s.eff s.grid s.out
  rw [← tiled.symbols] at run
  have last := tiled.symbolOffset_totalSymbols
  refine ⟨_, exec_ofdmFrame_normal valid normal, rfl, fun l j hl hj => ?_, fun m hm => ?_, fun m hm => ?_⟩
  · rw [State.outAt, run]
    simpa using read_modulateSymbols_inside (first := 0) tiled hl (by rwa [Nat.zero_add]) s.out
  · exact tiled.exists_symbol (by rwa [last])
  · rw [State.outAt, run]
    refine read_modulateSymbols_outside tiled ?_ _
    rw [Nat.zero_add, last]
    omega

/-- Settles O56: the column's only value sits at zero frequency, whose ideal transform is constant, and every sample of
the span is one of the transform's. -/
theorem idealTransformOfDc : Obligations.IdealTransformOfDc := by
  intro c q g o l v accepted normal _ column j hj
  have tiled := accepted.normalTiled normal
  obtain ⟨pos, fits, covers⟩ := accepted.sizes
  rw [← tiled.fourteen] at hj
  obtain ⟨i, hi, useful⟩ := symbolSample_eq_useful (T := idealTransform q) (g := g) tiled hj
  have bins : columnBins c.derive g l = fun k => if k.val = 0 then Config.toC v else 0 :=
    placeColumn_dc pos (by rw [c.derive_nSubcarriers]; omega) (fits.trans covers) fun i hi => by
      rw [column i hi, apply_ite Config.toC]
      rfl
  have inside : usefulStart c.derive + i < c.derive.nFft.toNat := by unfold usefulStart; omega
  rw [read_modulateSymbol_inside hj, useful, usefulSample, sampleAt_of_lt _ inside, bins, idealTransform,
    idealIdft_dc _ _ (by omega)]

end

section
/-! PROOFS. Errors and completion (60_exceptions.md): errors are reported and stop nothing, a run without host accesses
meets no model fault, and a pending command is performed or reset away before the schedule ends. -/

namespace Sys2Proof.Machine

/-! ### Raising an error -/

/-- The codes of the thirteen errors (60_exceptions.md R300). -/
theorem CmdError.code_listed (e : CmdError) :
    (e, e.code) ∈ [(CmdError.cfgCpInvalid, 0x01#8), (.cfgCellRange, 0x02#8), (.cfgMuRange, 0x03#8),
      (.cfgCpMismatch, 0x04#8), (.cfgFsNotInteger, 0x05#8), (.cfgNfftSmall, 0x06#8), (.cfgNfftLimit, 0x07#8),
      (.cfgNrbRange, 0x08#8), (.notConfigured, 0x10#8), (.range, 0x11#8), (.illegalCmd, 0x12#8), (.busy, 0x13#8),
      (.extCpUnsupported, 0x14#8)] := by
  cases e <;> decide

/-- The first error sets ERR and leaves its code (60_exceptions.md R301). -/
theorem State.raise_of_clear {s : State} (clear : s.err = false) (e : CmdError) :
    s.raise e = { s with err := true, errCode := e.code } := by
  rw [State.raise, clear]; rfl

/-- A later error leaves no trace (60_exceptions.md R301). -/
theorem State.raise_of_set {s : State} (set : s.err = true) (e : CmdError) : s.raise e = s := by
  rw [State.raise, set, if_pos rfl, ← set]

/-- A command without a configuration reports NOT_CONFIGURED and does no work (60_exceptions.md R300, R301). -/
theorem State.settle_unconfigured {s : State} (unconfigured : s.cfgValid = false) (k : Except CmdError State) :
    s.settle (s.needConfig k) = .next (s.raise .notConfigured) := by
  rw [State.needConfig_of_invalid unconfigured, State.settle_error]

/-! ### What always answers -/

/-- Every command answers a next state: the ones that can fail are settled (60_exceptions.md R303). -/
theorem exec_answers (i : Instr) (s : State) : ∃ t, exec i s = .next t := by
  cases i with
  | nop | cfgApply | prbsSeed | prbsGen | prbsSkip | qamMap => exact ⟨_, rfl⟩
  | gridClear | qamFill | rsCinit | rsGen | ofdmSym | ofdmSlot | ofdmFrame => exact s.settle_answers _

/-- The engine's turn with nothing pending (60_exceptions.md R319; log 8). -/
theorem engineTurn_idle {s : State} (idle : s.pending = none) : engineTurn s = .next s := by
  rw [engineTurn, idle]

/-- The engine's turn never stops the machine, whatever is pending (60_exceptions.md R306). -/
theorem engineTurn_answers (s : State) : ∃ t, engineTurn s = .next t := by
  cases pending : s.pending with
  | none => exact ⟨s, engineTurn_idle pending⟩
  | some w =>
    cases decoded : decode w with
    | command i =>
      obtain ⟨u, performed⟩ := exec_answers i s
      exact ⟨_, engineTurn_command pending decoded performed⟩
    | illegal why => exact ⟨_, engineTurn_illegal pending decoded⟩

/-- Only a host access can stop the machine (60_exceptions.md R307). -/
theorem step_answers {s : State} (noAccess : ∀ a, ¬ HostMoves s a) : ∃ t, step s = .next t := by
  cases agenda : s.env.agenda with
  | nil => rw [step_engine (.inl agenda)]; exact engineTurn_answers _
  | cons turn rest =>
    cases turn with
    | host a => exact absurd ⟨rest, agenda⟩ (noAccess a)
    | engine => rw [step_engine (.inr ⟨rest, agenda⟩)]; exact engineTurn_answers _
    | powerOn => exact ⟨s.popTurn.toReset, by rw [step, agenda]⟩

theorem faultFree_zero (s : State) : FaultFree 0 s := ⟨s, rfl⟩

/-- A run meets no fault when its first step answers and the rest of the run meets none. -/
theorem faultFree_succ {n : Nat} {s : State} : FaultFree (n + 1) s ↔ ∃ u, step s = .next u ∧ FaultFree n u := by
  constructor
  · rintro ⟨t, run⟩
    obtain ⟨u, first, rest⟩ := step_of_core_run run
    exact ⟨u, first, t, rest⟩
  · rintro ⟨u, first, t, rest⟩
    exact ⟨t, (core_run_of_step first).trans rest⟩

/-- With no host access scheduled, a run of any length meets no fault. -/
theorem faultFree_of_no_access {n : Nat} {s : State} (noAccess : ∀ turn ∈ s.env.agenda, ∀ a, turn ≠ .host a) :
    FaultFree n s := by
  induction n generalizing s with
  | zero => exact faultFree_zero s
  | succ n ih =>
    have notHost : ∀ a, ¬ HostMoves s a := fun a ⟨rest, agenda⟩ =>
      noAccess (.host a) (by rw [agenda]; exact List.mem_cons_self) a rfl
    obtain ⟨u, first⟩ := step_answers notHost
    refine faultFree_succ.2 ⟨u, first, ih fun turn later => noAccess turn ?_⟩
    rw [step_agenda first] at later
    exact List.mem_of_mem_tail later

/-! ### A pending command comes to its turn -/

/-- The engine's turn leaves nothing pending (60_exceptions.md R304). -/
theorem engineTurn_pending {s t : State} (h : engineTurn s = .next t) : t.pending = none := by
  rcases engineTurn_cases h with ⟨idle, rfl⟩ | ⟨w, i, u, -, -, -, rfl⟩ | ⟨w, why, -, -, rfl⟩
  · exact idle
  · exact u.complete_pending
  · exact State.complete_pending _

/-- One step more than there are turns ends with the engine's, so with nothing pending (60_exceptions.md R305). -/
theorem pending_eq_none_of_run {turns : List Turn} {s t : State} (agenda : s.env.agenda = turns)
    (run : Sys2Proof.core.run (turns.length + 1) s = .next t) : t.pending = none := by
  induction turns generalizing s with
  | nil =>
    obtain ⟨u, last, ended⟩ := step_of_core_run run
    cases ended
    rw [step_engine (.inl agenda)] at last
    exact engineTurn_pending last
  | cons turn rest ih =>
    obtain ⟨u, first, remaining⟩ := step_of_core_run run
    exact ih (by rw [step_agenda first, agenda, List.tail_cons]) remaining

/-- The engine moves, or a power-on reset or the host's soft reset comes next (70_reset_and_hazards.md R340, R341). -/
def EngineOrResetNext (s : State) : Prop :=
  EngineMoves s ∨ (∃ rest, s.env.agenda = .powerOn :: rest)
    ∨ ∃ v : BitVec 32, v.getLsbD 0 = true ∧ HostMoves s (.regWrite 32 RegName.ctrl.offset v)

/-- Within `n` steps the run from `s` reaches a state with `w` still pending, whose next turn performs or discards it
(60_exceptions.md R305). -/
def ComesToTurn (w : BitVec 32) (n : Nat) (s : State) : Prop :=
  ∃ k u, k ≤ n ∧ Sys2Proof.core.run k s = .next u ∧ u.pending = some w ∧ EngineOrResetNext u

theorem ComesToTurn.now {w : BitVec 32} {n : Nat} {s : State} (pending : s.pending = some w)
    (turn : EngineOrResetNext s) : ComesToTurn w n s := ⟨0, s, n.zero_le, rfl, pending, turn⟩

theorem ComesToTurn.later {w : BitVec 32} {n : Nat} {s u : State} (first : step s = .next u)
    (h : ComesToTurn w n u) : ComesToTurn w (n + 1) s := by
  obtain ⟨k, v, soon, run, reached⟩ := h
  exact ⟨k + 1, v, Nat.succ_le_succ soon, (core_run_of_step first).trans run, reached⟩

/-- A pending command waits only through host accesses, and each of them takes a turn of the agenda. -/
theorem comesToTurn_of_pending {turns : List Turn} {s : State} {w : BitVec 32} (agenda : s.env.agenda = turns)
    (pending : s.pending = some w) (free : FaultFree (turns.length + 1) s) : ComesToTurn w turns.length s := by
  induction turns generalizing s with
  | nil => exact .now pending (.inl (.inl agenda))
  | cons turn rest ih =>
    cases turn with
    | engine => exact .now pending (.inl (.inr ⟨rest, agenda⟩))
    | powerOn => exact .now pending (.inr (.inl ⟨rest, agenda⟩))
    | host a =>
      obtain ⟨u, first, remaining⟩ := faultFree_succ.1 free
      have moves : HostMoves s a := ⟨rest, agenda⟩
      have access : hostAccess a s.popTurn = .next u := (step_host moves).symm.trans first
      rcases hostAccess_pending (s := s.popTurn) pending access with waits | ⟨v, reset, rfl⟩
      · exact .later first (ih (by rw [step_agenda first, agenda, List.tail_cons]) waits remaining)
      · exact .now pending (.inr (.inr ⟨v, reset, moves⟩))

end Sys2Proof.Machine

open Sys2Proof Sys2Proof.Machine

/-- Settles O6: the engine's turn is exec of the decoded command, completed. -/
theorem stepRunsDecoded : Obligations.StepRunsDecoded := by
  intro s w i moves pending decoded u performed
  rw [step_engine moves, engineTurn_command (s := s.popTurn) pending decoded performed]
  rfl

/-- Settles O8: with nothing pending the engine's turn is the identity. -/
theorem idlenessPreservesState : Obligations.IdlenessPreservesState := by
  intro s moves idle
  rw [step_engine moves, engineTurn_idle (s := s.popTurn) idle]

/-- Settles O11: the code is the listed one of the error, and ERR decides whether it is recorded. -/
theorem firstErrorWins : Obligations.FirstErrorWins := by
  intro s e
  exact ⟨e.code, e.code_listed, fun clear => State.raise_of_clear clear e, fun set => State.raise_of_set set e⟩

/-- Settles O38: each of the seven commands checks for a configuration before anything else. -/
theorem unconfiguredCommandsReport : Obligations.UnconfiguredCommandsReport := by
  intro s i unconfigured needs
  rcases needs with rfl | ⟨tag, ord, rfl⟩ | ⟨sel, rfl⟩ | ⟨sel, rfl⟩ | ⟨l, rfl⟩ | ⟨n, rfl⟩ | rfl
  all_goals exact State.settle_unconfigured unconfigured _

/-- Settles O9: commands and engine steps always answer, so that only host accesses can stop a run. -/
theorem commandsNeverFault : Obligations.CommandsNeverFault :=
  ⟨exec_answers, fun _ _ noAccess => faultFree_of_no_access noAccess⟩

/-- Settles O10: the command comes to its turn, and when that is the engine's, it is performed or refused as
ILLEGAL_CMD. -/
theorem pendingCommandIsPerformed : Obligations.PendingCommandIsPerformed := by
  refine ⟨fun s w pending free => ?_, fun s t run => pending_eq_none_of_run rfl run⟩
  obtain ⟨k, u, soon, run, waiting, moves | reset⟩ := comesToTurn_of_pending rfl pending free
  · refine ⟨k, u, soon, run, waiting, .inl ⟨moves, ?_⟩⟩
    cases decoded : decode w with
    | command i =>
      obtain ⟨v, performed⟩ := exec_answers i u.popTurn
      exact .inl ⟨i, v, rfl, performed, stepRunsDecoded u w i moves waiting decoded v performed⟩
    | illegal why => exact .inr ⟨why, rfl, illegalCommandReports u w why moves waiting decoded⟩
  · exact ⟨k, u, soon, run, waiting, .inr reset⟩

end

section
/-! PROOFS. Read and write sets (70_reset_and_hazards.md R345 to R353): a command stays within its own footprint, a host
read of what the pending command writes is a draw, and a host write of what it uses is the fault HAZARD. -/

namespace Sys2Proof.Machine

/-! ### What the registers read after an update -/

section
variable {r : RegName}

/-- The flags and the error code are in STATUS and ERR_CODE only, and no register shows the memories or the
environment (10_state.md R30, R34, R35). -/
theorem readReg_report (s : State) (valid err : Bool) (code : BitVec 8) (g : Memory RE) (o : Memory Sample)
    (env : Environment) (notStatus : r ≠ .status) (notErrCode : r ≠ .errCode) :
    { s with cfgValid := valid, err := err, errCode := code, grid := g, out := o, env := env }.readReg r
      = s.readReg r := by
  cases r with
  | status => exact absurd rfl notStatus
  | errCode => exact absurd rfl notErrCode
  | _ => rfl

/-- Latching a configuration shows in the effective registers and in STATUS only (40_config.md R152). -/
theorem readReg_latch (s : State) (e : EffectiveConfig) (notLatched : r ∉ effectiveRegs) (notStatus : r ≠ .status) :
    { s with cfgValid := true, eff := e, grid := [], out := [] }.readReg r = s.readReg r := by
  cases r with
  | status => exact absurd rfl notStatus
  | effNum | effNrb | effCell | effFs | scsHz | slotsPerSubframe | symsPerSlot | nUseful | nFft | cpShort | cpLong
  | slotSamples | totalSlots | totalSymbols | totalSamples | nSubcarriers | cpLen =>
    exact absurd (by simp [effectiveRegs]) notLatched
  | _ => rfl

/-- PRBS_SEED's work shows in the PRBS registers only (41_prbs.md R181). -/
theorem readReg_seededPrbs (s : State) (c : BitVec 31)
    (free : r ∉ [RegName.prbsCinit, .prbsX1, .prbsX2, .prbsPos, .prbsOut]) :
    { s with prbs := seededPrbs c }.readReg r = s.readReg r := by
  cases r with
  | prbsCinit | prbsX1 | prbsX2 | prbsPos | prbsOut => exact absurd (by decide) free
  | _ => rfl

/-- PRBS_GEN's work does not show in PRBS_CINIT (41_prbs.md R183). -/
theorem readReg_generate (s : State) (cnt : Nat) (free : r ∉ [RegName.prbsX1, .prbsX2, .prbsPos, .prbsOut]) :
    { s with prbs := s.prbs.generate cnt }.readReg r = s.readReg r := by
  cases r with
  | prbsX1 | prbsX2 | prbsPos | prbsOut => exact absurd (by decide) free
  | _ => rfl

/-- PRBS_SKIP's work does not show in PRBS_CINIT and PRBS_OUT (41_prbs.md R184). -/
theorem readReg_skip (s : State) (k : Nat) (free : r ∉ [RegName.prbsX1, .prbsX2, .prbsPos]) :
    { s with prbs := s.prbs.skip k }.readReg r = s.readReg r := by
  cases r with
  | prbsX1 | prbsX2 | prbsPos => exact absurd (by decide) free
  | _ => rfl

/-- QAM_MAP's work shows in its three result registers only (42_qam.md R202). -/
theorem readReg_map (s : State) (m : MapRegs) (free : r ∉ [RegName.mapI, .mapQ, .mapNorm]) :
    { s with map := m }.readReg r = s.readReg r := by
  cases r with
  | mapI | mapQ | mapNorm => exact absurd (by decide) free
  | _ => rfl

/-- A reference-signal seed shows in RS_CINIT only, so that the PRBS registers keep their stream (10_state.md R49,
41_prbs.md R186). -/
theorem readReg_rsSeed (s : State) (c : BitVec 31) (g : Memory RE) (notSeed : r ≠ .rsCinit) :
    { s with rs := { s.rs with cinit := c }, grid := g }.readReg r = s.readReg r := by
  cases r with
  | rsCinit => exact absurd rfl notSeed
  | _ => rfl

end

/-! ### Commands stay within their footprint -/

/-- `t` differs from `s` in what `f` lets a command write, and in the report (70_reset_and_hazards.md R345). -/
structure StaysWithin (f : Footprint) (s t : State) : Prop where
  regs : ∀ r, r ∉ f.writeRegs → r ≠ .status → r ≠ .errCode → t.readReg r = s.readReg r
  grid : f.writesGrid = false → t.grid = s.grid
  out : f.writesOut = false → t.out = s.out
  pending : t.pending = s.pending
  irqEn : t.irqEn = s.irqEn
  done : t.done = s.done

theorem StaysWithin.refl (f : Footprint) (s : State) : StaysWithin f s s :=
  ⟨fun _ _ _ _ => rfl, fun _ => rfl, fun _ => rfl, rfl, rfl, rfl⟩

/-- Rewriting memories that `f` lets a command write, whatever is drawn for it. -/
theorem StaysWithin.memories {f : Footprint} {s : State} {g : Memory RE} {o : Memory Sample} (env : Environment)
    (grid : f.writesGrid = false → g = s.grid) (out : f.writesOut = false → o = s.out) :
    StaysWithin f s { s with grid := g, out := o, env := env } :=
  { StaysWithin.refl f s with
    regs := fun _ _ notStatus notErrCode => readReg_report s _ _ _ g o env notStatus notErrCode
    grid := grid
    out := out }

/-- A settled command stays within its footprint when its success does: an error shows in the report only. -/
theorem StaysWithin.of_settle {f : Footprint} {s t : State} {r : Except CmdError State} (h : s.settle r = .next t)
    (success : ∀ u, r = .ok u → StaysWithin f s u) : StaysWithin f s t := by
  rcases State.settle_next.1 h with ok | ⟨e, -, rfl⟩
  · exact success t ok
  · exact { StaysWithin.refl f s with
      regs := fun _ _ notStatus notErrCode => readReg_report s _ _ _ _ _ _ notStatus notErrCode }

/-- An OFDM command writes OUT and nothing else (44_ofdm.md R266 to R268). -/
theorem StaysWithin.of_settle_normal {f : Footprint} {s t : State} {k : Except CmdError State} {o : Memory Sample}
    (h : s.settle (s.needNormalCp k) = .next t) (success : ∀ u, k = .ok u → u = { s with out := o })
    (writes : f.writesOut = true) : StaysWithin f s t := by
  refine .of_settle h fun u ok => ?_
  obtain ⟨-, -, ok⟩ := State.needNormalCp_ok.1 ok
  cases success u ok
  exact .memories s.env (fun _ => rfl) fun kept => absurd kept (by simp [writes])

/-- Every command stays within its footprint (70_reset_and_hazards.md R345). -/
theorem exec_staysWithin {i : Instr} {s t : State} (h : exec i s = .next t) : StaysWithin (footprint i) s t := by
  have same : StaysWithin (footprint i) s s := .refl _ s
  cases i with
  | nop => cases h; exact same
  | cfgApply =>
    cases h
    unfold State.applyConfig
    split
    next =>
      exact { same with
        regs := fun r free notStatus _ => readReg_latch s s.cfg.derive free notStatus
        grid := nofun
        out := nofun }
    next e _ =>
      exact { same with
        regs := fun r _ notStatus notErrCode => readReg_report s _ _ _ _ _ _ notStatus notErrCode
        grid := nofun
        out := nofun }
  | gridClear =>
    refine .of_settle h fun u ok => ?_
    obtain ⟨-, ok⟩ := State.needConfig_ok.1 ok
    cases ok
    exact .memories s.env nofun fun _ => rfl
  | prbsSeed => cases h; exact { same with regs := fun r free _ _ => readReg_seededPrbs s _ free }
  | prbsGen => cases h; exact { same with regs := fun r free _ _ => readReg_generate s _ free }
  | prbsSkip => cases h; exact { same with regs := fun r free _ _ => readReg_skip s _ free }
  | qamMap => cases h; exact { same with regs := fun r free _ _ => readReg_map s _ free }
  | qamFill =>
    refine .of_settle h fun u ok => ?_
    obtain ⟨-, ok⟩ := State.needConfig_ok.1 ok
    obtain ⟨-, ok⟩ := needRange_ok.1 ok
    cases ok
    exact .memories _ nofun fun _ => rfl
  | rsCinit =>
    refine .of_settle h fun u ok => ?_
    obtain ⟨-, ok⟩ := State.needConfig_ok.1 ok
    cases ok
    exact { same with regs := fun r free _ _ => readReg_rsSeed s _ _ (List.ne_of_not_mem_cons free) }
  | rsGen =>
    refine .of_settle h fun u ok => ?_
    obtain ⟨-, ok⟩ := State.needConfig_ok.1 ok
    obtain ⟨-, ok⟩ := needRange_ok.1 ok
    cases ok
    exact { same with
      regs := fun r free _ _ => readReg_rsSeed s _ _ (List.ne_of_not_mem_cons free)
      grid := nofun }
  | ofdmSym | ofdmSlot =>
    exact .of_settle_normal h (fun u ok => (Except.ok.inj (needRange_ok.1 ok).2).symm) rfl
  | ofdmFrame => exact .of_settle_normal h (fun u ok => (Except.ok.inj ok).symm) rfl

/-! ### Host accesses to what the pending command uses -/

section
variable {s : State} {w : BitVec 32} {i : Instr} (pending : s.pending = some w) (decoded : decode w = .command i)
include pending decoded

theorem readHazard_of_written {r : RegName} (written : r ∈ (footprint i).writeRegs) : s.readHazard r = true := by
  rw [State.readHazard, pendingFootprint_command pending decoded]
  exact List.contains_iff_mem.2 written

theorem writeHazard_of_used {r : RegName} (used : r ∈ (footprint i).readRegs ∨ r ∈ (footprint i).writeRegs) :
    s.writeHazard r = true := by
  rw [State.writeHazard, pendingFootprint_command pending decoded, Bool.or_eq_true]
  exact used.imp List.contains_iff_mem.2 List.contains_iff_mem.2

theorem gridWriteHazard_of_used (used : (footprint i).readsGrid = true ∨ (footprint i).writesGrid = true) :
    s.gridWriteHazard = true := by
  rw [State.gridWriteHazard, pendingFootprint_command pending decoded, Bool.or_eq_true]
  exact used

end

section
variable {s : State}

/-- A read of a register that the pending command writes is a draw in the used bits (70_reset_and_hazards.md R351). -/
theorem hostRegRead_hazard {r : RegName} (hazard : s.readHazard r = true) : hostRegRead 32 r.offset s
    = .next ((s.drew 1).observe (.reg r.offset (Config.drawWord s.env.draws &&& r.usedBits))) := by
  have value : s.busRead r.offset = (Config.drawWord s.env.draws &&& r.usedBits, 1) := by
    rw [State.busRead, regAt_offset]
    exact if_pos hazard
  rw [hostRegRead, if_pos (accessLegal_offset r), value]

/-- A write of a register that the pending command uses is a fault (70_reset_and_hazards.md R352; log 13). -/
theorem hostRegWrite_hazard {r : RegName} (hazard : s.writeHazard r = true) (v : BitVec 32) :
    hostRegWrite 32 r.offset v s = .fault .hazard := by
  rw [hostRegWrite, if_pos (accessLegal_offset r), regAt_offset]
  exact if_pos hazard

/-- An existing element reads as a draw while the pending command writes GRID, re-created or not
(70_reset_and_hazards.md R351, R353). -/
theorem hostGridRead_hazard {k l : Nat} (present : s.gridExists k l = true)
    (written : s.pendingFootprint.writesGrid = true) : hostGridRead k l s = .next (s.drawGrid k l) := by
  rw [hostGridRead, if_pos present, if_pos written, ite_self]

/-- An existing sample reads as a draw while the pending command writes OUT, re-created or not
(70_reset_and_hazards.md R351, R353). -/
theorem hostOutRead_hazard {n : Nat} (present : s.outExists n = true)
    (written : s.pendingFootprint.writesOut = true) : hostOutRead n s = .next (s.drawOut n) := by
  rw [hostOutRead, if_pos present, if_pos written, ite_self]

/-- A write of an existing element is a fault while the pending command uses GRID, re-created or not
(70_reset_and_hazards.md R352, R353). -/
theorem hostGridWrite_hazard {k l : Nat} (present : s.gridExists k l = true) (hazard : s.gridWriteHazard = true)
    (v : Sample) (tag : Tag) : hostGridWrite k l v tag.code s = .fault .hazard := by
  rw [hostGridWrite, if_pos present, tag_ofCode_code]
  dsimp only
  rw [if_pos hazard, ite_self]

end

end Sys2Proof.Machine

open Sys2Proof Sys2Proof.Machine

/-- Settles O21: each kind of read is shut out because the pending footprint writes what is read. -/
theorem hazardousReadIsAnyValue : Obligations.HazardousReadIsAnyValue := by
  intro s w i pending decoded
  have command : s.popTurn.pendingFootprint = footprint i :=
    pendingFootprint_command (s := s.popTurn) pending decoded
  refine ⟨fun r written h => ?_, fun k l written present h => ?_, fun n written present h => ?_⟩
  · exact (step_host h).trans (hostRegRead_hazard (readHazard_of_written (s := s.popTurn) pending decoded written))
  · exact (step_host h).trans (hostGridRead_hazard (s := s.popTurn) present (command ▸ written))
  · exact (step_host h).trans (hostOutRead_hazard (s := s.popTurn) present (command ▸ written))

/-- Settles O22: the table of read and write sets is the written-out one, and each kind of write meets a hazard. -/
theorem hazardousWriteFaults : Obligations.HazardousWriteFaults := by
  refine ⟨fun i => by cases i <;> rfl, fun s w i pending decoded =>
    ⟨fun r v used h => ?_, fun k l v tag used present h => ?_⟩⟩
  · exact (step_host h).trans (hostRegWrite_hazard (writeHazard_of_used (s := s.popTurn) pending decoded used) v)
  · exact (step_host h).trans (hostGridWrite_hazard (s := s.popTurn) present
      (gridWriteHazard_of_used (s := s.popTurn) pending decoded used) v tag)

/-- Settles O29: the effect of every command, and of its errors, lies within its footprint. -/
theorem commandFootprints : Obligations.CommandFootprints := by
  intro i s t performed
  obtain ⟨regs, grid, out, pending, irqEn, done⟩ := exec_staysWithin performed
  exact ⟨regs, grid, out, pending, irqEn, done⟩

end
